-- ==== Sys2Proof/Word.lean ====
section
/-! DEFINITION. The byte and the text of the WZ-420's links and captions.

Characters are given by their codes (spec/00_scope.md, Conventions), so a text is a list of bytes. -/

namespace Sys2Proof

/-- One byte of a link, a load buffer or a script page; also one character, by its code. -/
abbrev Byte := BitVec 8

/-- A text: its characters in order. -/
abbrev Text := List Byte

end Sys2Proof
end

