-- ==== Sys2Proof/Syntax.lean ====
section
/-! DEFINITION. The commands of the WZ-420: one constructor of `Instr` for each row of spec/opcode_table.json.

The table gives its rows no operands, so the operands are the model's (DESIGN CHOICE, log entry 2): a frame row carries
the frame's payload as R182 and R183 lay it out, so that the length and field checks of R21, R177 and R184 are part of
the row's meaning; a receiver row carries the bytes on the line; a row of a lane names the lane. -/

namespace Sys2Proof

/-- The four writer stations, one per writer link (R21: the writer is the one whose link the frame came on). -/
inductive WriterId where
  | w0 | w1 | w2 | w3
deriving DecidableEq, Repr

/-- The two lanes (spec/00_scope.md, Lanes). -/
inductive LaneId where
  | lane0 | lane1
deriving DecidableEq, Repr

/-- The seven serial links: W0 to W3, A, I0 and I1 (spec/10_serial_links.md). -/
inductive Link where
  | writer (w : WriterId)
  | automation
  | inserter (l : LaneId)
deriving DecidableEq, Repr

/-- A timecode word as it is received: four bytes, each two decimal digits, tens in the upper four bits (R7, R182,
log entry 21). -/
structure TimecodeWord where
  hh : Byte
  mm : Byte
  ss : Byte
  ff : Byte
deriving DecidableEq, Repr

/-- A byte as a link receiver takes it from the line: its value, and whether its stop bit was received (R173). -/
structure LineByte where
  value : Byte
  stop : Bool
deriving DecidableEq, Repr

/-- The commands, in the order of spec/opcode_table.json. -/
inductive Instr where
  /-- POWER_ON (R15, R192): power is applied with these levels on the four address strap pins. -/
  | powerOn (straps : BitVec 4)
  /-- PULSE_ARRIVAL (R4, R6): a reference pulse, with its timecode word if it carries one. -/
  | pulseArrival (timecode : Option TimecodeWord)
  /-- PULSE_SUPERVISION_EXPIRY (R4). -/
  | pulseSupervisionExpiry
  /-- INTERNAL_GENERATOR_EXPIRY (R5). -/
  | internalGeneratorExpiry
  /-- SAME_FRAME_WINDOW_CLOSE (R6). -/
  | sameFrameWindowClose
  /-- FLUSH_TIMER_EXPIRY of a lane (R58). -/
  | flushTimerExpiry (l : LaneId)
  /-- CORRECTION_WINDOW_EXPIRY of a lane (R62): the builder's act on a frame event. -/
  | correctionWindowExpiry (l : LaneId)
  /-- CUE_SCHEDULE_DUE (R119): the cue scheduler's act on a frame event. -/
  | cueScheduleDue
  /-- AUTOMATION_SUPERVISION_EXPIRY (R134). -/
  | automationSupervisionExpiry
  /-- WORD from a writer (R21 to R23). -/
  | word (w : WriterId) (payload : List Byte)
  /-- SPEAKER from a writer (R57). -/
  | speaker (w : WriterId) (payload : List Byte)
  /-- DELETE from a writer (R65). -/
  | delete (w : WriterId) (payload : List Byte)
  /-- WRITER_TAKE: TAKE from a writer (R26). -/
  | writerTake (w : WriterId) (payload : List Byte)
  /-- QUERY from a writer (R27). -/
  | query (w : WriterId) (payload : List Byte)
  /-- WRITER_FRAME_REFUSED (R21): a writer frame of a kind that is none of the six. -/
  | writerFrameRefused (w : WriterId) (kind : Byte) (payload : List Byte)
  /-- HANDOVER request (R40). -/
  | handover (payload : List Byte)
  /-- INSERTER_REQUEST (R104, R106, R107): a REQUEST on the lane's inserter link. -/
  | inserterRequest (l : LaneId) (payload : List Byte)
  /-- INSERTER_FRAME_REFUSED (R177): an inserter frame of another kind or of the wrong length. -/
  | inserterFrameRefused (l : LaneId) (kind : Byte) (payload : List Byte)
  /-- CONFIGURE_LANE request (R88). -/
  | configureLane (payload : List Byte)
  /-- CONFIGURE_WRITER request (R20). -/
  | configureWriter (payload : List Byte)
  /-- SET_STYLE request (R55). -/
  | setStyle (payload : List Byte)
  /-- SET_STYLE_LIMIT request (R56). -/
  | setStyleLimit (payload : List Byte)
  /-- SET_FRAME_RATE request (R14). -/
  | setFrameRate (payload : List Byte)
  /-- SET_SUPERVISION request (R133). -/
  | setSupervision (payload : List Byte)
  /-- ASSIGN request (R17, R18). -/
  | assign (payload : List Byte)
  /-- START request (R116). -/
  | start (payload : List Byte)
  /-- STOP request (R117). -/
  | stop (payload : List Byte)
  /-- LOAD_BUFFER request (R142). -/
  | loadBuffer (payload : List Byte)
  /-- COMMIT request (R144). -/
  | commit (payload : List Byte)
  /-- COMMIT_COMPLETION (R145). -/
  | commitCompletion
  /-- COMPARE request (R146). -/
  | compare (payload : List Byte)
  /-- COMPARE_COMPLETION (R146). -/
  | compareCompletion
  /-- DEFINE_SEGMENT request (R148). -/
  | defineSegment (payload : List Byte)
  /-- DELETE_SEGMENT request (R149). -/
  | deleteSegment (payload : List Byte)
  /-- PREPARE request (R150). -/
  | prepare (payload : List Byte)
  /-- PREPARE_COMPLETION (R151, R158, R159). -/
  | prepareCompletion
  /-- STORE_RESET request (R153). -/
  | storeReset (payload : List Byte)
  /-- CANCEL_CUE request (R122). -/
  | cancelCue (payload : List Byte)
  /-- RELEASE request (R135). -/
  | release (payload : List Byte)
  /-- POLL request (R188). -/
  | poll (payload : List Byte)
  /-- STATUS request (R189). -/
  | status (payload : List Byte)
  /-- CLEAR_COUNTERS request (R190). -/
  | clearCounters (payload : List Byte)
  /-- ENGINE_RESET request (R191). -/
  | engineReset (payload : List Byte)
  /-- AUTOMATION_FRAME_REFUSED (R184): an addressed frame on link A of unknown kind. -/
  | automationFrameRefused (kind : Byte) (payload : List Byte)
  /-- FREEZE cue (R123). `rest` is the CUE payload after its cue-kind byte, here and in the ten cues below (R182). -/
  | freeze (broadcast : Bool) (rest : List Byte)
  /-- THAW cue (R123). -/
  | thaw (broadcast : Bool) (rest : List Byte)
  /-- HOLD cue (R124). -/
  | hold (broadcast : Bool) (rest : List Byte)
  /-- RESUME cue (R124). -/
  | resume (broadcast : Bool) (rest : List Byte)
  /-- STEP cue (R125). -/
  | stepCue (broadcast : Bool) (rest : List Byte)
  /-- CLEAR cue (R129). -/
  | clear (broadcast : Bool) (rest : List Byte)
  /-- JOIN cue (R130). -/
  | join (broadcast : Bool) (rest : List Byte)
  /-- SPLIT cue (R131). -/
  | split (broadcast : Bool) (rest : List Byte)
  /-- TAKE_CUE: the TAKE cue (R161). -/
  | takeCue (broadcast : Bool) (rest : List Byte)
  /-- ADVANCE cue (R164). -/
  | advance (broadcast : Bool) (rest : List Byte)
  /-- END cue (R168). -/
  | endCue (broadcast : Bool) (rest : List Byte)
  /-- TRANSMIT_FRAME (R179): the link's line is free and its transmitter sends the earliest waiting frame. -/
  | transmitFrame (k : Link)
  /-- ABORT (R173): these bytes come on the link's line, and an escape followed by a flag ends them. -/
  | abort (k : Link) (line : List LineByte)
  /-- CHECK_ERROR (R173, R175): these bytes come on the link's line and are discarded as a check error. -/
  | checkError (k : Link) (line : List LineByte)
  /-- SIZE_ERROR (R174): these bytes come on the link's line and are discarded as a size error. -/
  | sizeError (k : Link) (line : List LineByte)
  /-- FRAME_IGNORED (R176): these bytes come on the link's line as a good-check frame that is not for the part. -/
  | frameIgnored (k : Link) (line : List LineByte)
  /-- BREAK from a writer (R23). -/
  | breakMark (w : WriterId) (payload : List Byte)
  /-- FLAG_ARRIVAL (R173): a flag byte arrives at the link's receiver. -/
  | flagArrival (k : Link)
deriving DecidableEq, Repr

end Sys2Proof
end

