-- ==== Sys2Proof/Decode.lean ====
section
/-! DEFINITION. The command that a word of the table's bits spells. No row of spec/opcode_table.json gives bits (each row's
list of fields is empty and none has fixed bits), so no word spells a command. -/

namespace Sys2Proof

/-- The command a word spells by the bits of spec/opcode_table.json: none, as the table gives no row any bits. -/
def decodeTableWord (_nbits _w : Nat) : Option Instr := none

end Sys2Proof
end

