-- ==== Sys2Proof/Config.lean ====
section
/-! DEFINITION. What the part fixes once for all: its capacities, and the one value the spec leaves open. -/

namespace Sys2Proof.Config

/-- R1: SFC is an unsigned 48-bit count; this is the number of its values. -/
def sfcSpan : Nat := 2 ^ 48

/-- R1 gives no value after the 48-bit count's last one ("SFC does not come to its limit in service").
FREE VALUE, no body: nothing can be proved of it. Log entry 1. -/
opaque sfcPastLimit : BitVec 48

/-- "Every counter is 16 bits and saturates at 65,535" (spec/00_scope.md, Conventions). -/
def counterMax : Nat := 65535

/-- R30: a staging list holds at most 64 entries. -/
def stagingCapacity : Nat := 64

/-- R38: the recent-word window holds at most 12 entries. -/
def windowCapacity : Nat := 12

/-- R43: the greatest overlap a handover recognises. -/
def overlapMax : Nat := 8

/-- R61: the provisional list holds at most 4 units. -/
def provisionalCapacity : Nat := 4

/-- R82: the timed queue holds at most 32 units. -/
def queueCapacity : Nat := 32

/-- R119: the cue schedule holds at most 32 entries. -/
def scheduleCapacity : Nat := 32

/-- R157: a deck holds at most 48 units. -/
def deckCapacity : Nat := 48

/-- R187: the report queue holds at most 32 reports. -/
def reportCapacity : Nat := 32

/-- R188: a POLL returns at most four reports. -/
def pollBatch : Nat := 4

/-- R21: a word has at most 24 characters; R158 cuts script words into pieces of that length. -/
def wordMax : Nat := 24

/-- R140, R142: a page and a load buffer hold 96 characters. -/
def pageLength : Nat := 96

/-- R140: script memory holds 512 pages. -/
def pageCount : Nat := 512

/-- R148: the segment table holds 64 entries. -/
def segmentCount : Nat := 64

/-- R54: the style table holds 16 entries. -/
def styleCount : Nat := 16

/-- R29, R179: a writer link holds at most four unsent REFUSED frames. -/
def refusedCapacity : Nat := 4

/-- R180: link A holds at most four unsent replies. -/
def automationReplyCapacity : Nat := 4

/-- R180: I0 and I1 hold at most two unsent replies each. -/
def inserterReplyCapacity : Nat := 2

/-- R174: the greatest body of a frame, in bytes after unstuffing. -/
def bodyMax : Nat := 244

/-- R182: the greatest payload of a frame. -/
def payloadMax : Nat := 240

end Sys2Proof.Config
end

