-- ==== Sys2Proof/Machine/State.lean ====
section
/-! DEFINITION. The state of the WZ-420, block by block as spec/00_scope.md's block diagram owns it, and its value right
after power-on. Every field is plain data. -/

namespace Sys2Proof.Machine

/-! ## Shapes shared by several blocks -/

/-- One thing for each lane. -/
structure PerLane (α : Type) where
  lane0 : α
  lane1 : α
deriving DecidableEq, Repr

/-- One thing for each writer. -/
structure PerWriter (α : Type) where
  w0 : α
  w1 : α
  w2 : α
  w3 : α
deriving DecidableEq, Repr

/-- Characters by address: the cells that hold something other than 0x00, addresses strictly rising. An address that is
not listed reads 0x00, the power-on value the spec gives script memory and load buffers (R140, R142). -/
abbrev Memory := List Host.Cell

/-! ## Time base (spec/01_time_base.md) -/

/-- The frame rate F, 25 or 30 frames per second (R14). -/
inductive Rate where
  | r25 | r30
deriving DecidableEq, Repr

/-- Where frame events now come from. -/
inductive PulseSource where
  | reference | internal
deriving DecidableEq, Repr

/-- How far FOD is trusted to follow the reference timecode. -/
inductive LockState where
  | search | verify | locked
deriving DecidableEq, Repr

/-- The state the time base owns. A timer is running or stopped, the window open or closed; how long each has run is
outside the model (log entry 3). -/
structure TimeBase where
  sfc : Nat
  fod : Nat
  rate : Rate
  source : PulseSource
  supervision : Bool
  generator : Bool
  window : Bool
  lock : LockState
  candidate : Option Nat
  misses : Nat
deriving DecidableEq, Repr

/-! ## Writer intake (spec/02_writer_stations_and_roles.md) -/

/-- A writer's role (R16). -/
inductive Role where
  | idle
  | onAir (l : LaneId)
  | standby (l : LaneId)
deriving DecidableEq, Repr

/-- A BREAK mark and a SPEAKER mark, of a staged entry or pending (R30). -/
structure Marks where
  brk : Bool
  speaker : Option Byte
deriving DecidableEq, Repr

/-- A staged entry (R30). -/
structure Staged where
  text : Text
  attach : Bool
  arrival : Nat
  marks : Marks
deriving DecidableEq, Repr

/-- What writer intake holds for one writer. -/
structure Writer where
  role : Role
  lag : Nat
  staging : List Staged
  marks : Marks
  overflowReported : Bool
  overflows : Nat
deriving DecidableEq, Repr

/-! ## Styles (R54) -/

inductive Colour where
  | white | yellow | cyan | green | magenta | red | blue
deriving DecidableEq, Repr

inductive Alignment where
  | left | centre
deriving DecidableEq, Repr

/-- The part of a style entry that a unit copies besides the label (R50). -/
structure Style where
  colour : Colour
  alignment : Alignment
  italic : Bool
deriving DecidableEq, Repr

/-- One of the 16 entries of the style table. -/
structure StyleEntry where
  style : Style
  label : Text
deriving DecidableEq, Repr

/-! ## Caption units (R50) -/

/-- A word with its ATTACH flag. -/
structure CapWord where
  text : Text
  attach : Bool
deriving DecidableEq, Repr

inductive Origin where
  | live (w : WriterId)
  | script (segment : Nat)
deriving DecidableEq, Repr

inductive CloseCause where
  | full | brk | speaker | flush | handover | take
deriving DecidableEq, Repr

/-- A caption unit but for its window end and its timing fields, which stand beside it where it has them. The character
count n is computed from the lines (`CaptionUnit.count`). -/
structure CaptionUnit where
  lane : LaneId
  lines : List Text
  words : List CapWord
  style : Style
  label : Option Text
  origin : Origin
  firstArrival : Option Nat
  onset : Option Int
  closeFrame : Option Nat
  closeCause : Option CloseCause
  cut : Bool
deriving DecidableEq, Repr

/-- A closed live unit on the provisional list, with its window end (R57a). -/
structure Provisional where
  unit : CaptionUnit
  windowEnd : Nat
deriving DecidableEq, Repr

/-- The catch-up level (R76). -/
inductive CatchUp where
  | level0 | level1 | level2
deriving DecidableEq, Repr

/-- A unit once timed, with its base frame b, catch-up level, effective minimum m′ and release frame R. `ref` is the
MODEL's own number for the unit, by which the last-timed record refers to it (log entry 4). -/
structure TimedUnit where
  unit : CaptionUnit
  base : Nat
  level : CatchUp
  minimum : Nat
  release : Nat
  ref : Nat
deriving DecidableEq, Repr

/-! ## One lane: builder, timing engine, display set, deck player, lane control and counters -/

/-- The lane builder (spec/04_building_caption_units.md). -/
structure Builder where
  openUnit : Option CaptionUnit
  provisional : List Provisional
  recent : List Text
  flush : Option Nat
  style : Nat
  pendingLabel : Bool
deriving DecidableEq, Repr

/-- The last-timed record (R72). -/
structure LastTimed where
  release : Nat
  minimum : Nat
  ref : Nat
deriving DecidableEq, Repr

/-- The timing engine (spec/05_release_timing.md). `nextRef` is the MODEL's own counter that numbers timed units. -/
structure Engine where
  queue : List TimedUnit
  record : Option LastTimed
  level : CatchUp
  nextRef : Nat
deriving DecidableEq, Repr

/-- A filled row of a display image; an empty row is `none` in the image's list. -/
structure Row where
  text : Text
  style : Style
deriving DecidableEq, Repr

/-- A display image (R94), with the unit that was composed into it, which stands in the buffer with the image. -/
structure Image where
  rows : List (Option Row)
  release : Option Nat
  cut : Bool
  serial : Option Nat
  unit : Option TimedUnit
deriving DecidableEq, Repr

/-- The display set (spec/06_display_buffers_and_inserter_service.md). -/
structure DisplaySet where
  compose : Image
  next : Image
  nextReady : Bool
  air : Image
  onAir : Nat
  serial : Nat
  changed : Bool
  missRun : Nat
  matchRun : Nat
  alignFault : Bool
deriving DecidableEq, Repr

inductive Pacing where
  | stepped | auto
deriving DecidableEq, Repr

/-- The deck states (R157). -/
inductive DeckState where
  | empty
  | preparing (segment : Nat)
  | ready (segment : Nat)
  | playing (segment : Nat)
deriving DecidableEq, Repr

/-- A pending take: the cue frame and the tag of its TAKE (R163). -/
structure PendingTake where
  frame : Nat
  tag : Nat
deriving DecidableEq, Repr

/-- The deck player (spec/09_script_decks_and_segment_playback.md). `units` holds the units not yet timed, `nextIndex` counts
from 0 (log entry 22), and `onsets`
their pacing onsets. -/
structure Deck where
  state : DeckState
  units : List CaptionUnit
  nextIndex : Option Nat
  pacing : Option Pacing
  onsets : List Nat
  pendingTake : Option PendingTake
deriving DecidableEq, Repr

inductive Mode where
  | block | roll
deriving DecidableEq, Repr

inductive ReplyMode where
  | changeOnly | everyFrame
deriving DecidableEq, Repr

/-- The lane parameters, in the order of the table of spec/05_release_timing.md. -/
structure Params where
  mode : Mode
  width : Nat
  rows : Nat
  readingRate : Nat
  hMin : Nat
  hMax : Nat
  hFloor : Nat
  hClear : Nat
  lead : Nat
  delay : Nat
  correction : Nat
  flush : Nat
  lam1 : Nat
  lam2 : Nat
  lamMax : Nat
  stale : Nat
  group : Nat
  reply : ReplyMode
  pacing : Pacing
  align : Bool
deriving DecidableEq, Repr

/-- The seven lane counters, in the order of R189. -/
structure Counters where
  released : Nat
  cut : Nat
  stale : Nat
  discarded : Nat
  suppressed : Nat
  overlap : Nat
  late : Nat
deriving DecidableEq, Repr

inductive LaneState where
  | stopped | running
deriving DecidableEq, Repr

inductive Source where
  | live | script
deriving DecidableEq, Repr

/-- One lane, with the parts of every block that belong to it. -/
structure Lane where
  state : LaneState
  source : Source
  frozen : Bool
  held : Bool
  params : Params
  builder : Builder
  engine : Engine
  display : DisplaySet
  deck : Deck
  counters : Counters
deriving DecidableEq, Repr

/-- What lane 1's display set told its inserter of lane 0 (R107): the four flags taken from lane 0. -/
structure FollowedStatus where
  running : Bool
  frozen : Bool
  held : Bool
  script : Bool
deriving DecidableEq, Repr

/-! ## Cues (spec/07_lane_control_and_cues.md) -/

inductive CueKind where
  | freeze | thaw | hold | step | resume | clear | split | join | take | advance | finish
deriving DecidableEq, Repr

/-- What a cue carries besides its target (the table before R118). -/
structure Cue where
  kind : CueKind
  mask : Byte
  tag : Nat
  segment : Nat
deriving DecidableEq, Repr

/-- A cue schedule entry (R119). -/
structure ScheduledCue where
  cue : Cue
  target : Nat
deriving DecidableEq, Repr

/-! ## Script store (spec/08_script_store.md) -/

inductive PageState where
  | empty | writing | valid | invalid
deriving DecidableEq, Repr

inductive BufferId where
  | bufA | bufB
deriving DecidableEq, Repr

/-- A load buffer: its characters by position, and its lock (R142). -/
structure LoadBuffer where
  chars : Memory
  locked : Bool
deriving DecidableEq, Repr

/-- A defined segment (R148). -/
structure Segment where
  first : Nat
  count : Nat
deriving DecidableEq, Repr

/-- The store engine: IDLE, or BUSY with the one operation in flight (R143). -/
inductive StoreEngine where
  | idle
  | commit (b : BufferId) (page : Nat)
  | compare (b : BufferId) (page : Nat)
  | prepare (segment : Nat) (l : LaneId)
deriving DecidableEq, Repr

/-- The last compare result (R146); `firstDiff` is absent for MATCH, present for DIFFER. -/
structure CompareResult where
  isMatch : Bool
  buffer : BufferId
  page : Nat
  firstDiff : Option Nat
  completedAt : Nat
deriving DecidableEq, Repr

/-- The script store. `text` holds the characters of every page: character i of page p at address 96 p + i. -/
structure Store where
  pages : Vector PageState 512
  text : Memory
  bufferA : LoadBuffer
  bufferB : LoadBuffer
  segments : Vector (Option Segment) 64
  engine : StoreEngine
  lastCompare : Option CompareResult
deriving DecidableEq, Repr

/-! ## Reports (R186, R187) -/

/-- The refusal reasons, in the order of their codes 1 to 20 (R182). -/
inductive Reason where
  | badKind | badLength | badField | badWord | notAssigned | notStandby | noStandby | laneStopped | laneRunning
  | storeBusy | bufferBusy | pageBusy | pageInvalid | segmentUndefined | segmentRange | segmentBusy | deckBusy
  | cueFull | takeRefused | following
deriving DecidableEq, Repr

/-- The report kinds (R186). -/
inductive ReportKind where
  | refuse (r : Reason)
  | engineReset | pulseLost | pulseRestored | lockGained | lockLost | lateCue | substituted | stagingOverflow
  | handover | styleLimit | provisionalOverflow | lateCorrection | unitCut | queueFullDiscard | alignFault
  | alignRestored | unitsStale | takeAbandoned | automationWithdraw | storeDone | storeAbandoned | deckTruncated
  | deckInvalidated | segmentEnd
deriving DecidableEq, Repr

/-- A report (R187). Its class is fixed by its kind (`ReportKind.cls`). -/
structure Report where
  kind : ReportKind
  lane : Option LaneId
  writer : Option WriterId
  value : Option Nat
  stamp : Nat
deriving DecidableEq, Repr

/-! ## Link controllers (spec/10_serial_links.md) -/

inductive ReceiverMode where
  | hunting | inFrame | discarding
deriving DecidableEq, Repr

/-- A link receiver (R173): its state, the body bytes taken so far, and whether the byte before was an escape. -/
structure Receiver where
  mode : ReceiverMode
  body : List Byte
  escape : Bool
deriving DecidableEq, Repr

/-- A frame made by the part and waiting to be sent: its kind and payload (R179). -/
structure TxFrame where
  kind : Byte
  payload : List Byte
deriving DecidableEq, Repr

/-- A link controller: receiver, the four counts of R178, the frames waiting unsent in the order they were made, and (the
MODEL's own output port, log entry 5) the line bytes of the frame sent last. -/
structure LinkState where
  rx : Receiver
  good : Nat
  checks : Nat
  aborts : Nat
  sizes : Nat
  waiting : List TxFrame
  line : List Byte
deriving DecidableEq, Repr

/-- The seven link controllers. -/
structure Links where
  writers : PerWriter LinkState
  automation : LinkState
  inserters : PerLane LinkState
deriving DecidableEq, Repr

/-! ## The part -/

/-- The whole part, and the queue of the commands that are waiting, first in first out. -/
structure State where
  pending : List Instr
  time : TimeBase
  writers : PerWriter Writer
  styles : Vector StyleEntry 16
  styleLimit : Nat
  lanes : PerLane Lane
  following : Bool
  followedSerial : Option Nat
  followedStatus : Option FollowedStatus
  schedule : List ScheduledCue
  supervisionInterval : Nat
  supervisionExpiry : Option Nat
  store : Store
  reports : List Report
  reportOverflow : Bool
  links : Links
  partAddress : Nat
deriving DecidableEq, Repr

/-- Why the part stops: it never does. No rule of the spec calls a behaviour undefined, so no meaning ends in a fault
(NOTES.md, Stops). -/
inductive Fault where
deriving DecidableEq, Repr

/-- Why a command has no outcome. -/
inductive Refusal where
  /-- Raised by an arm of `exec` for a command that has no meaning yet; no arm raises it. Safe. -/
  | notModelled (mnemonic : String)
deriving DecidableEq, Repr

/-! ## Power-on values -/

/-- R15. -/
def TimeBase.powerOn : TimeBase :=
  { sfc := 0, fod := 0, rate := .r25, source := .internal, supervision := false, generator := true, window := false,
    lock := .search, candidate := none, misses := 0 }

/-- No mark. -/
def Marks.empty : Marks := { brk := false, speaker := none }

/-- R37. -/
def Writer.powerOn : Writer :=
  { role := .idle, lag := 50, staging := [], marks := Marks.empty, overflowReported := false, overflows := 0 }

/-- R54: WHITE, LEFT, italic off, no label. -/
def StyleEntry.plain : StyleEntry :=
  { style := { colour := .white, alignment := .left, italic := false }, label := [] }

/-- R54: every entry is plain but entry 1, which has the label ">>". -/
def powerOnStyles : Vector StyleEntry 16 :=
  (Vector.replicate 16 StyleEntry.plain).set 1 { StyleEntry.plain with label := [0x3E, 0x3E] }

/-- The builder's power-on values (spec/04_building_caption_units.md). -/
def Builder.powerOn : Builder :=
  { openUnit := none, provisional := [], recent := [], flush := none, style := 0, pendingLabel := false }

/-- The timing engine's power-on values (spec/05_release_timing.md). -/
def Engine.powerOn : Engine := { queue := [], record := none, level := .level0, nextRef := 0 }

/-- A blank image (R94). -/
def Image.blank (serial : Option Nat) : Image :=
  { rows := [], release := none, cut := false, serial := serial, unit := none }

/-- The display set right after power-on, ENGINE RESET, STOP or START at the SFC given (R110). -/
def DisplaySet.resetAt (sfc : Nat) : DisplaySet :=
  { compose := Image.blank none, next := Image.blank none, nextReady := false, air := Image.blank (some 0),
    onAir := sfc, serial := 0, changed := true, missRun := 0, matchRun := 0, alignFault := false }

/-- The deck player's power-on values (spec/09_script_decks_and_segment_playback.md). -/
def Deck.powerOn : Deck :=
  { state := .empty, units := [], nextIndex := none, pacing := none, onsets := [], pendingTake := none }

/-- The defaults of the lane parameter table; the group membership is the lane's own. -/
def Params.default (group : Nat) : Params :=
  { mode := .block, width := 32, rows := 2, readingRate := 15, hMin := 38, hMax := 150, hFloor := 20, hClear := 250,
    lead := 5, delay := 0, correction := 10, flush := 75, lam1 := 25, lam2 := 75, lamMax := 150, stale := 500,
    group := group, reply := .changeOnly, pacing := .stepped, align := false }

/-- Lane counters at 0. -/
def Counters.zero : Counters :=
  { released := 0, cut := 0, stale := 0, discarded := 0, suppressed := 0, overlap := 0, late := 0 }

/-- A lane at power-on. -/
def Lane.powerOn (group : Nat) : Lane :=
  { state := .stopped, source := .live, frozen := false, held := false, params := Params.default group,
    builder := Builder.powerOn, engine := Engine.powerOn, display := DisplaySet.resetAt 0, deck := Deck.powerOn,
    counters := Counters.zero }

/-- A load buffer at power-on (R142). -/
def LoadBuffer.powerOn : LoadBuffer := { chars := [], locked := false }

/-- R156. -/
def Store.powerOn : Store :=
  { pages := Vector.replicate 512 .empty, text := [], bufferA := LoadBuffer.powerOn, bufferB := LoadBuffer.powerOn,
    segments := Vector.replicate 64 none, engine := .idle, lastCompare := none }

/-- A receiver that is HUNTING. -/
def Receiver.hunting : Receiver := { mode := .hunting, body := [], escape := false }

/-- A receiver that a flag has just made IN FRAME with an empty body (R173). -/
def Receiver.inFrame : Receiver := { mode := .inFrame, body := [], escape := false }

/-- R181. -/
def LinkState.powerOn : LinkState :=
  { rx := Receiver.hunting, good := 0, checks := 0, aborts := 0, sizes := 0, waiting := [], line := [] }

/-- R181. -/
def Links.powerOn : Links :=
  { writers := ⟨LinkState.powerOn, LinkState.powerOn, LinkState.powerOn, LinkState.powerOn⟩,
    automation := LinkState.powerOn, inserters := ⟨LinkState.powerOn, LinkState.powerOn⟩ }

/-- The part right after power is applied with these levels on the address straps (R15, R192 and every chapter's
power-on values). -/
def State.powerOn (straps : BitVec 4) : State :=
  { pending := [], time := TimeBase.powerOn,
    writers := ⟨Writer.powerOn, Writer.powerOn, Writer.powerOn, Writer.powerOn⟩,
    styles := powerOnStyles, styleLimit := 2, lanes := ⟨Lane.powerOn 1, Lane.powerOn 2⟩,
    following := false, followedSerial := none, followedStatus := none, schedule := [], supervisionInterval := 0,
    supervisionExpiry := none, store := Store.powerOn, reports := [], reportOverflow := false,
    links := Links.powerOn, partAddress := 1 + straps.toNat }

/-- The machine right after reset: power-on, with the address straps all low (the strap levels are outside the part:
DESIGN CHOICE, log entry 6). -/
def State.reset : State := State.powerOn 0

end Sys2Proof.Machine
end

