-- ==== Sys2Proof/Machine/Operands.lean ====
section
/-! DEFINITION. Reading the operands of commands: multi-byte numbers, identifiers and timecode words (R7, R182, R183). -/

namespace Sys2Proof.Machine

/-- A number of so many bytes, low byte first (R182); a number that does not fit keeps its low bytes (log entry 16). -/
def leBytes : Nat → Nat → List Byte
  | 0, _ => []
  | n + 1, v => BitVec.ofNat 8 v :: leBytes n (v / 256)

/-- The number a run of bytes gives, low byte first (R182). -/
def leNat : List Byte → Nat
  | [] => 0
  | b :: bs => b.toNat + 256 * leNat bs

/-- The payload byte at a position, as a number; a payload is read only after its length was checked. -/
def byteAt (p : List Byte) (i : Nat) : Nat := (p.getD i 0).toNat

/-- The payload's two-byte number at a position (R182). -/
def wordAt (p : List Byte) (i : Nat) : Nat := leNat ((p.drop i).take 2)

/-- A lane number, 0 or 1. -/
def laneOf (n : Nat) : Option LaneId :=
  if n = 0 then some .lane0 else if n = 1 then some .lane1 else none

/-- A writer number, 0 to 3. -/
def writerOf (n : Nat) : Option WriterId :=
  if n = 0 then some .w0 else if n = 1 then some .w1 else if n = 2 then some .w2 else if n = 3 then some .w3 else none

/-- A buffer code: 0 for A and 1 for B (R183). -/
def bufferOf (n : Nat) : Option BufferId :=
  if n = 0 then some .bufA else if n = 1 then some .bufB else none

/-- The number of a lane. -/
def laneNumber : LaneId → Nat
  | .lane0 => 0
  | .lane1 => 1

/-- The number of a writer. -/
def writerNumber : WriterId → Nat
  | .w0 => 0
  | .w1 => 1
  | .w2 => 2
  | .w3 => 3

/-- F, in frames per second. -/
def Rate.hz : Rate → Nat
  | .r25 => 25
  | .r30 => 30

/-- P, the frames of a day (R2). -/
def Rate.day (r : Rate) : Nat := 86400 * r.hz

/-- The rate a number names (R14). -/
def rateOf (n : Nat) : Option Rate :=
  if n = 25 then some .r25 else if n = 30 then some .r30 else none

/-- Two decimal digits, tens in the upper four bits (R182); none when a digit is above 9. -/
def bcd (b : Byte) : Option Nat :=
  let tens := b.toNat / 16
  let units := b.toNat % 16
  if tens ≤ 9 ∧ units ≤ 9 then some (10 * tens + units) else none

/-- The value of a timecode word at a frame rate, when it is valid there (R7). -/
def timecodeFrames (t : TimecodeWord) (r : Rate) : Option Nat :=
  match bcd t.hh, bcd t.mm, bcd t.ss, bcd t.ff with
  | some hh, some mm, some ss, some ff =>
    if hh ≤ 23 ∧ mm ≤ 59 ∧ ss ≤ 59 ∧ ff < r.hz then some (((hh * 60 + mm) * 60 + ss) * r.hz + ff) else none
  | _, _, _, _ => none

/-- The timecode word of a REQUEST payload (R182). -/
def timecodeOf (p : List Byte) : TimecodeWord :=
  { hh := p.getD 0 0, mm := p.getD 1 0, ss := p.getD 2 0, ff := p.getD 3 0 }

/-- A clamp to [low, high] (spec/00_scope.md, Symbols). -/
def clamp (low high x : Nat) : Nat := if x < low then low else if high < x then high else x

/-- The colour a style byte's bits 0 to 2 name (R182). -/
def colourOf (n : Nat) : Option Colour :=
  match n with
  | 0 => some .white
  | 1 => some .yellow
  | 2 => some .cyan
  | 3 => some .green
  | 4 => some .magenta
  | 5 => some .red
  | 6 => some .blue
  | _ => none

/-- The style a style byte names: bits 0 to 2 colour, bit 3 CENTRE, bit 4 italic (R182). Other bits are ignored (log entry 23). -/
def styleOf (b : Byte) : Option Style :=
  (colourOf (b.toNat % 8)).map fun c =>
    { colour := c, alignment := if b.getLsbD 3 then .centre else .left, italic := b.getLsbD 4 }

/-- Whether a character is one a word may show: 0x21 to 0x7E. -/
def printable (b : Byte) : Bool := 0x21 ≤ b.toNat && b.toNat ≤ 0x7E

/-- R22: a character outside 0x21 to 0x7E is replaced by '?'. -/
def substitute (b : Byte) : Byte := if printable b then b else 0x3F

/-- The cue a cue-kind byte names (R182). -/
def cueKindOf (n : Nat) : Option CueKind :=
  match n with
  | 1 => some .freeze
  | 2 => some .thaw
  | 3 => some .hold
  | 4 => some .step
  | 5 => some .resume
  | 6 => some .clear
  | 7 => some .split
  | 8 => some .join
  | 9 => some .take
  | 10 => some .advance
  | 11 => some .finish
  | _ => none

end Sys2Proof.Machine
end

