-- ==== Sys2Proof/Machine/Flags.lean ====
section
/-! DEFINITION. The codes under which the part sends its states, flags, reasons and reports (R182, R186, R188, R189). -/

namespace Sys2Proof.Machine

/-- The cue-kind byte of a cue (R182). -/
def CueKind.code : CueKind → Nat
  | .freeze => 1
  | .thaw => 2
  | .hold => 3
  | .step => 4
  | .resume => 5
  | .clear => 6
  | .split => 7
  | .join => 8
  | .take => 9
  | .advance => 10
  | .finish => 11

/-- The reason codes (R182). -/
def Reason.code : Reason → Nat
  | .badKind => 1
  | .badLength => 2
  | .badField => 3
  | .badWord => 4
  | .notAssigned => 5
  | .notStandby => 6
  | .noStandby => 7
  | .laneStopped => 8
  | .laneRunning => 9
  | .storeBusy => 10
  | .bufferBusy => 11
  | .pageBusy => 12
  | .pageInvalid => 13
  | .segmentUndefined => 14
  | .segmentRange => 15
  | .segmentBusy => 16
  | .deckBusy => 17
  | .cueFull => 18
  | .takeRefused => 19
  | .following => 20

/-- The report kind codes (R186). -/
def ReportKind.code : ReportKind → Nat
  | .refuse r => r.code
  | .engineReset => 0x21
  | .pulseLost => 0x22
  | .pulseRestored => 0x23
  | .lockGained => 0x24
  | .lockLost => 0x25
  | .lateCue => 0x26
  | .substituted => 0x27
  | .stagingOverflow => 0x28
  | .handover => 0x29
  | .styleLimit => 0x2A
  | .provisionalOverflow => 0x2B
  | .lateCorrection => 0x2C
  | .unitCut => 0x2D
  | .queueFullDiscard => 0x2E
  | .alignFault => 0x2F
  | .alignRestored => 0x30
  | .unitsStale => 0x31
  | .takeAbandoned => 0x32
  | .automationWithdraw => 0x33
  | .storeDone => 0x34
  | .storeAbandoned => 0x35
  | .deckTruncated => 0x36
  | .deckInvalidated => 0x37
  | .segmentEnd => 0x38

/-- The four classes of report (R186). -/
inductive ReportClass where
  | refuse | note | abandon | event
deriving DecidableEq, Repr

/-- The class of each report kind (R186). -/
def ReportKind.cls : ReportKind → ReportClass
  | .refuse _ => .refuse
  | .lateCue | .substituted | .stagingOverflow | .styleLimit | .provisionalOverflow | .lateCorrection | .unitCut
  | .queueFullDiscard | .alignFault | .unitsStale | .deckTruncated | .deckInvalidated => .note
  | .takeAbandoned | .storeAbandoned => .abandon
  | .engineReset | .pulseLost | .pulseRestored | .lockGained | .lockLost | .handover | .alignRestored
  | .automationWithdraw | .storeDone | .segmentEnd => .event

/-- The class codes (R188). -/
def ReportClass.code : ReportClass → Nat
  | .refuse => 0
  | .note => 1
  | .abandon => 2
  | .event => 3

/-- One report as a POLL reply sends it, 15 bytes (R188). -/
def Report.bytes (r : Report) : List Byte :=
  leBytes 1 r.kind.code ++ leBytes 1 r.kind.cls.code
    ++ leBytes 1 (match r.lane with | some l => laneNumber l | none => 0xFF)
    ++ leBytes 1 (match r.writer with | some w => writerNumber w | none => 0xFF)
    ++ leBytes 1 (if r.value.isSome then 1 else 0) ++ leBytes 4 (r.value.getD 0) ++ leBytes 6 r.stamp

/-- The role code of a ROLE frame (R182). -/
def Role.code : Role → Nat
  | .idle => 0
  | .onAir _ => 1
  | .standby _ => 2

/-- The lane of a role, absent when IDLE. -/
def Role.lane : Role → Option LaneId
  | .idle => none
  | .onAir l => some l
  | .standby l => some l

/-- A style as the style byte of a row sends it (R182). -/
def Style.byte (s : Style) : Nat :=
  (match s.colour with
    | .white => 0
    | .yellow => 1
    | .cyan => 2
    | .green => 3
    | .magenta => 4
    | .red => 5
    | .blue => 6)
  + (match s.alignment with | .left => 0 | .centre => 8) + (if s.italic then 16 else 0)

/-- One row of a DISPLAY reply (R182). -/
def rowBytes : Option Row → List Byte
  | none => [0, 0]
  | some r => leBytes 1 r.text.length ++ leBytes 1 r.style.byte ++ r.text

/-- The status flags of a reply (R105, R182). -/
def statusFlags (running frozen held following alignFault script : Bool) : Nat :=
  (if running then 1 else 0) + (if frozen then 2 else 0) + (if held then 4 else 0) + (if following then 8 else 0)
    + (if alignFault then 16 else 0) + (if script then 32 else 0)

/-- The payload of a DISPLAY reply (R182). -/
def displayPayload (lane flags serial : Nat) (im : Image) : List Byte :=
  leBytes 1 lane ++ leBytes 1 flags ++ leBytes 2 serial
    ++ leBytes 1 ((if im.release.isSome then 1 else 0) + (if im.cut then 2 else 0))
    ++ leBytes 6 (im.release.getD 0) ++ leBytes 1 im.rows.length ++ im.rows.flatMap rowBytes

/-- The payload of an UNCHANGED reply (R182). -/
def unchangedPayload (lane flags serial : Nat) : List Byte :=
  leBytes 1 lane ++ leBytes 1 flags ++ leBytes 2 serial

/-! ## The one-byte codes of STATUS (R189): "a flag or state is one byte coded from 0 in the order its table lists its
values". The spec's tables list a flag's values as "set or clear" (log entry 7). -/

/-- A flag, whose values are listed "set or clear". -/
def flagCode (f : Bool) : Nat := if f then 0 else 1

/-- "absent, or …": presence. -/
def presentCode (f : Bool) : Nat := if f then 1 else 0

/-- "locked or unlocked" (spec/08_script_store.md). -/
def lockCode (f : Bool) : Nat := if f then 0 else 1

def PulseSource.code : PulseSource → Nat
  | .reference => 0
  | .internal => 1

def LockState.code : LockState → Nat
  | .search => 0
  | .verify => 1
  | .locked => 2

def LaneState.code : LaneState → Nat
  | .stopped => 0
  | .running => 1

def Source.code : Source → Nat
  | .live => 0
  | .script => 1

def Mode.code : Mode → Nat
  | .block => 0
  | .roll => 1

def ReplyMode.code : ReplyMode → Nat
  | .changeOnly => 0
  | .everyFrame => 1

def Pacing.code : Pacing → Nat
  | .stepped => 0
  | .auto => 1

/-- The alignment check parameter, OFF 0 and ON 1 (R183). -/
def alignCode (on : Bool) : Nat := if on then 1 else 0

def CloseCause.code : CloseCause → Nat
  | .full => 0
  | .brk => 1
  | .speaker => 2
  | .flush => 3
  | .handover => 4
  | .take => 5

def CatchUp.code : CatchUp → Nat
  | .level0 => 0
  | .level1 => 1
  | .level2 => 2

def DeckState.code : DeckState → Nat
  | .empty => 0
  | .preparing _ => 1
  | .ready _ => 2
  | .playing _ => 3

/-- The segment a deck state names. -/
def DeckState.segment : DeckState → Option Nat
  | .empty => none
  | .preparing s => some s
  | .ready s => some s
  | .playing s => some s

def PageState.code : PageState → Nat
  | .empty => 0
  | .writing => 1
  | .valid => 2
  | .invalid => 3

def BufferId.code : BufferId → Nat
  | .bufA => 0
  | .bufB => 1

end Sys2Proof.Machine
end

