-- ==== Sys2Proof/Machine/Framing.lean ====
section
/-! DEFINITION. Frames on the line: stuffing, the check, and the receiver (R172 to R175). -/

namespace Sys2Proof.Machine

/-- The flag byte (R172). -/
def flagByte : Byte := 0xE7

/-- The escape byte (R172). -/
def escapeByte : Byte := 0xE8

/-- The broadcast address (R172). -/
def broadcastAddress : Byte := 0xFF

/-- One body byte as it is sent (R172). -/
def stuffByte (b : Byte) : List Byte :=
  if b = flagByte ∨ b = escapeByte then [escapeByte, b ^^^ 0x40] else [b]

/-- A body as it is sent (R172). -/
def stuff : List Byte → List Byte
  | [] => []
  | b :: bs => stuffByte b ++ stuff bs

/-- One shift of the check register (R175). -/
def crcShift (r : BitVec 16) : BitVec 16 :=
  if r.msb then (r <<< 1) ^^^ 0x8005 else r <<< 1

/-- The check register after one more byte (R175). -/
def crcByte (r : BitVec 16) (b : Byte) : BitVec 16 :=
  crcShift (crcShift (crcShift (crcShift (crcShift (crcShift (crcShift (crcShift
    (r ^^^ (b.setWidth 16 <<< 8)))))))))

/-- The check of a run of bytes (R175). -/
def crc (bs : List Byte) : BitVec 16 := bs.foldl crcByte 0xFFFF

/-- A check as the last two bytes of a body, low byte first (R172). -/
def checkBytes (c : BitVec 16) : List Byte := [c.setWidth 8, (c >>> 8).setWidth 8]

/-- The body of a frame before stuffing (R172). -/
def frameBody (address kind : Byte) (payload : List Byte) : List Byte :=
  address :: kind :: payload ++ checkBytes (crc (address :: kind :: payload))

/-- A frame on the line: a flag, the stuffed body and a closing flag (R172). -/
def lineFrame (address kind : Byte) (payload : List Byte) : List Byte :=
  flagByte :: stuff (frameBody address kind payload) ++ [flagByte]

/-- What a receiver makes of the bytes it takes (R173 to R175). -/
inductive RxEvent where
  | abort
  | checkError
  | sizeError
  /-- A frame whose check matches: its address, its kind and its payload. -/
  | frame (address kind : Byte) (payload : List Byte)
deriving DecidableEq, Repr

/-- R174 and R175: what a flag that closes a body of 1 or more bytes makes of it. -/
def judgeBody (body : List Byte) : RxEvent :=
  match body.take (body.length - 2) with
  | address :: kind :: payload =>
    if body.drop (body.length - 2) = checkBytes (crc (address :: kind :: payload)) then .frame address kind payload
    else .checkError
  | _ => .sizeError

/-- R173: an aborted or discarded frame leaves the receiver DISCARDING. -/
def Receiver.discarding : Receiver := { mode := .discarding, body := [], escape := false }

/-- R173, R174: one more byte of the body; the 245th makes the frame a size error. -/
def Receiver.add (r : Receiver) (b : Byte) : Receiver × Option RxEvent :=
  if Config.bodyMax < r.body.length + 1 then (Receiver.discarding, some .sizeError)
  else ({ mode := .inFrame, body := r.body ++ [b], escape := false }, none)

/-- R173: a flag arrives. In every state the receiver becomes IN FRAME with an empty body. -/
def Receiver.flag (r : Receiver) : Receiver × Option RxEvent :=
  match r.mode with
  | .hunting => (Receiver.inFrame, none)
  | .discarding => (Receiver.inFrame, none)
  | .inFrame =>
    if r.escape then (Receiver.inFrame, some .abort)
    else if r.body = [] then (Receiver.inFrame, none)
    else (Receiver.inFrame, some (judgeBody r.body))

/-- R173: one byte arrives from the line. A byte received without its stop bit is never taken as a flag. -/
def Receiver.take (r : Receiver) (b : LineByte) : Receiver × Option RxEvent :=
  if b.stop ∧ b.value = flagByte then r.flag
  else match r.mode with
    | .hunting => (r, none)
    | .discarding => (r, none)
    | .inFrame =>
      if ¬ b.stop then (Receiver.discarding, some .checkError)
      else if r.escape then
        if b.value = 0xA7 ∨ b.value = 0xA8 then r.add (b.value ^^^ 0x40)
        else (Receiver.discarding, some .checkError)
      else if b.value = escapeByte then ({ r with escape := true }, none)
      else r.add b.value

/-- A run of line bytes: the receiver after it, and what it made of them, in order. -/
def Receiver.run : Receiver → List LineByte → Receiver × List RxEvent
  | r, [] => (r, [])
  | r, b :: bs =>
    let (r1, e) := r.take b
    let (r2, es) := Receiver.run r1 bs
    (r2, e.toList ++ es)

/-- Bytes on the line, each received with its stop bit. -/
def onLine (bs : List Byte) : List LineByte := bs.map fun b => { value := b, stop := true }

/-- The receiver stands between frames: HUNTING, DISCARDING, or IN FRAME with nothing taken since the flag. -/
def Receiver.betweenFrames (r : Receiver) : Bool :=
  match r.mode with
  | .inFrame => r.body.isEmpty && !r.escape
  | _ => true

end Sys2Proof.Machine
end

