-- ==== Sys2Proof/Machine/Memory.lean ====
section
/-! DEFINITION. Reading and writing the characters of script memory and of the load buffers (R140, R142). -/

namespace Sys2Proof.Machine

/-- The character at an address; an unlisted address reads 0x00 (R140, R142, log entry 17). -/
def Memory.read : Memory → Nat → Byte
  | [], _ => 0
  | (b, v) :: m, a => if b = a then v else Memory.read m a

/-- The memory with the character at an address replaced, in canonical form. -/
def Memory.write : Memory → Nat → Byte → Memory
  | [], a, v => if v = 0 then [] else [(a, v)]
  | (b, w) :: m, a, v =>
    if a < b then (if v = 0 then (b, w) :: m else (a, v) :: (b, w) :: m)
    else if a = b then (if v = 0 then m else (a, v) :: m)
    else (b, w) :: Memory.write m a v

/-- The characters written from an address onward (R142: "each byte as received"). -/
def Memory.writeRun : Memory → Nat → List Byte → Memory
  | m, _, [] => m
  | m, a, v :: vs => Memory.writeRun (Memory.write m a v) (a + 1) vs

/-- The `n` characters from an address onward. -/
def Memory.readRun (m : Memory) (a : Nat) : Nat → List Byte
  | 0 => []
  | n + 1 => Memory.read m a :: Memory.readRun m (a + 1) n

/-- The canonical form above a bound: addresses above it and strictly rising, no listed 0x00. -/
def Memory.wfAbove : Option Nat → Memory → Bool
  | _, [] => true
  | lo, (b, v) :: m => (match lo with | none => true | some l => decide (l < b)) && decide (v ≠ 0) && Memory.wfAbove (some b) m

/-- The canonical form: addresses strictly rising, no listed 0x00. -/
def Memory.wf (m : Memory) : Bool := Memory.wfAbove none m

end Sys2Proof.Machine
end

