-- ==== Sys2Proof/Machine/Ops.lean ====
section
/-! DEFINITION. The named operations over the state: its lanes, writers and links, the report queue, the lane counters,
and the frame in which one lane's blocks act. -/

namespace Sys2Proof.Machine

/-! ## Lanes, writers, links -/

def PerLane.get {α : Type} (p : PerLane α) : LaneId → α
  | .lane0 => p.lane0
  | .lane1 => p.lane1

def PerLane.set {α : Type} (p : PerLane α) : LaneId → α → PerLane α
  | .lane0, x => { p with lane0 := x }
  | .lane1, x => { p with lane1 := x }

def PerWriter.get {α : Type} (p : PerWriter α) : WriterId → α
  | .w0 => p.w0
  | .w1 => p.w1
  | .w2 => p.w2
  | .w3 => p.w3

def PerWriter.set {α : Type} (p : PerWriter α) : WriterId → α → PerWriter α
  | .w0, x => { p with w0 := x }
  | .w1, x => { p with w1 := x }
  | .w2, x => { p with w2 := x }
  | .w3, x => { p with w3 := x }

def Links.get (k : Links) : Link → LinkState
  | .writer w => k.writers.get w
  | .automation => k.automation
  | .inserter l => k.inserters.get l

def Links.set (k : Links) : Link → LinkState → Links
  | .writer w, x => { k with writers := k.writers.set w x }
  | .automation, x => { k with automation := x }
  | .inserter l, x => { k with inserters := k.inserters.set l x }

def State.lane (s : State) (l : LaneId) : Lane := s.lanes.get l
def State.setLane (s : State) (l : LaneId) (x : Lane) : State := { s with lanes := s.lanes.set l x }
def State.writer (s : State) (w : WriterId) : Writer := s.writers.get w
def State.setWriter (s : State) (w : WriterId) (x : Writer) : State := { s with writers := s.writers.set w x }
def State.link (s : State) (k : Link) : LinkState := s.links.get k
def State.setLink (s : State) (k : Link) (x : LinkState) : State := { s with links := s.links.set k x }

/-! ## Counters and reports -/

/-- A counter's value, held at 65,535 (spec/00_scope.md, Conventions). -/
def saturate (n : Nat) : Nat := min n Config.counterMax

/-- R187: a report joins the queue at its end, or is dropped and the overflow mark set. -/
def State.queueReport (s : State) (r : Report) : State :=
  if s.reports.length < Config.reportCapacity then { s with reports := s.reports ++ [r] }
  else { s with reportOverflow := true }

/-- R187: several reports of one event, in order. -/
def State.queueReports (s : State) (rs : List Report) : State := rs.foldl State.queueReport s

/-- A report stamped with the SFC at which it is queued (R1, R187). -/
def State.report (s : State) (kind : ReportKind) (lane : Option LaneId) (writer : Option WriterId)
    (value : Option Nat) : State :=
  s.queueReport { kind := kind, lane := lane, writer := writer, value := value, stamp := s.time.sfc }

/-! ## One lane's blocks at work

The builder, the timing engine, the display set and the deck player of a lane act on that lane alone, read the SFC, the
frame rate and the shared style table, and queue reports. -/

/-- What a lane's blocks read besides the lane. -/
structure LaneEnv where
  lane : LaneId
  sfc : Nat
  rate : Rate
  styles : Vector StyleEntry 16
  styleLimit : Nat

/-- A lane at work: the lane as it now stands, and the reports queued so far, in order. -/
structure LaneRun where
  lane : Lane
  out : List Report

/-- The lane changed as given. -/
def LaneRun.edit (r : LaneRun) (f : Lane → Lane) : LaneRun := { r with lane := f r.lane }

/-- A report of the lane is queued. -/
def LaneRun.emit (r : LaneRun) (env : LaneEnv) (kind : ReportKind) (writer : Option WriterId) (value : Option Nat) :
    LaneRun :=
  { r with out := r.out ++ [{ kind := kind, lane := some env.lane, writer := writer, value := value, stamp := env.sfc }] }

/-- What the blocks of a lane read at this moment. -/
def State.env (s : State) (l : LaneId) : LaneEnv :=
  { lane := l, sfc := s.time.sfc, rate := s.time.rate, styles := s.styles, styleLimit := s.styleLimit }

/-- A lane's blocks act, and their reports join the queue. -/
def State.onLane (s : State) (l : LaneId) (act : LaneEnv → LaneRun → LaneRun) : State :=
  let r := act (s.env l) { lane := s.lane l, out := [] }
  (s.setLane l r.lane).queueReports r.out

/-! ## Frames the part sends (R179, R180) -/

/-- ROLE (R182). -/
def roleKind : Byte := 0x18
/-- ACK (R182). -/
def ackKind : Byte := 0x50
/-- REFUSED (R182). -/
def refusedKind : Byte := 0x51
/-- POLL reply (R182). -/
def pollReplyKind : Byte := 0x52
/-- STATUS reply (R182). -/
def statusReplyKind : Byte := 0x53
/-- DISPLAY (R182). -/
def displayKind : Byte := 0x68
/-- UNCHANGED (R182). -/
def unchangedKind : Byte := 0x69

/-- A REFUSED frame: the reason code and the kind of the refused frame as received (R182). -/
def refusedFrame (reason : Reason) (kind : Byte) : TxFrame :=
  { kind := refusedKind, payload := [BitVec.ofNat 8 reason.code, kind] }

/-- The ROLE frame of a writer (R28, R182). -/
def roleFrame (id : WriterId) (w : Writer) : TxFrame :=
  { kind := roleKind
    payload := leBytes 1 (writerNumber id) ++ leBytes 1 w.role.code
      ++ leBytes 1 (match w.role.lane with | some l => laneNumber l | none => 0xFF)
      ++ leBytes 2 w.lag ++ leBytes 1 w.staging.length }

/-- A frame joins the frames waiting on a link. -/
def LinkState.send (k : LinkState) (f : TxFrame) : LinkState := { k with waiting := k.waiting ++ [f] }

/-- R179: a ROLE frame replaces an unsent ROLE frame and stands behind every frame made before it. -/
def LinkState.sendRole (k : LinkState) (f : TxFrame) : LinkState :=
  { k with waiting := k.waiting.filter (fun g => decide (g.kind ≠ roleKind)) ++ [f] }

/-- R29, R179: a REFUSED frame on a writer link, dropped when four wait unsent. -/
def LinkState.sendRefused (k : LinkState) (f : TxFrame) : LinkState :=
  if (k.waiting.filter (fun g => decide (g.kind = refusedKind))).length < Config.refusedCapacity then k.send f else k

/-- A ROLE frame is made for a writer, from the writer as it now stands (R28). -/
def State.announceRole (s : State) (w : WriterId) : State :=
  s.setLink (.writer w) ((s.link (.writer w)).sendRole (roleFrame w (s.writer w)))

/-- A message of a writer is refused (R29). -/
def State.refuseWriter (s : State) (w : WriterId) (reason : Reason) (kind : Byte) : State :=
  s.setLink (.writer w) ((s.link (.writer w)).sendRefused (refusedFrame reason kind))

/-- A frame is sent on a link. -/
def State.send (s : State) (k : Link) (f : TxFrame) : State := s.setLink k ((s.link k).send f)

/-- A good frame is counted (R176, R178). -/
def State.countGood (s : State) (k : Link) : State :=
  s.setLink k { s.link k with good := saturate ((s.link k).good + 1) }

/-- The closing flag of a whole frame leaves the receiver IN FRAME with an empty body (R173, log entry 14). -/
def State.frameClosed (s : State) (k : Link) : State :=
  s.setLink k { s.link k with rx := Receiver.inFrame }

/-- A good frame has arrived on a link: its closing flag opens the next frame, and it is counted (R173, R176). -/
def State.goodFrame (s : State) (k : Link) : State := (s.frameClosed k).countGood k

/-- R180: the link holds its limit of unsent replies, so a request that would need one is not delivered. -/
def State.repliesFull (s : State) (k : Link) : Bool :=
  match k with
  | .writer _ => false
  | .automation => decide (Config.automationReplyCapacity ≤ (s.link .automation).waiting.length)
  | .inserter l => decide (Config.inserterReplyCapacity ≤ (s.link (.inserter l)).waiting.length)

end Sys2Proof.Machine
end

