-- ==== Sys2Proof/Machine/Layout.lean ====
section
/-! DEFINITION. Laying words into lines and creating units (R52, R53, R60), shared by the lane builders and PREPARE. -/

namespace Sys2Proof.Machine

/-- The character count n of a unit: the sum of the lengths of its lines, label included (R50). -/
def CaptionUnit.count (u : CaptionUnit) : Nat := (u.lines.map List.length).sum

/-- R52: the line limit, rows in BLOCK mode and 1 in ROLL mode. -/
def Params.lineLimit (p : Params) : Nat :=
  match p.mode with
  | .block => p.rows
  | .roll => 1

/-- R52: a word placed in a unit with these lines, on the current line or on a new one; none when the unit is full. -/
def placeWord (p : Params) (lines : List Text) (w : CapWord) : Option (List Text) :=
  let current := lines.getLastD []
  let separator : Text := if current = [] ∨ w.attach then [] else [0x20]
  if current.length + separator.length + w.text.length ≤ p.width then
    some (lines.dropLast ++ [current ++ separator ++ w.text])
  else if lines.length < p.lineLimit then some (lines ++ [w.text])
  else none

/-- R53: the lines of a unit created by a word under a label, and the label the unit takes. -/
def firstLines (p : Params) (label : Option Text) (w : CapWord) : List Text × Option Text :=
  match label with
  | none => ([w.text], none)
  | some lb =>
    if lb.length + 1 + w.text.length ≤ p.width then ([lb ++ [0x20] ++ w.text], some lb)
    else if 1 < p.lineLimit then ([lb, w.text], some lb)
    else ([w.text], none)

/-- R66: the lines of a unit as the layout of its label and words by R52 and R53. -/
def layLines (p : Params) (label : Option Text) : List CapWord → List Text
  | [] => []
  | w :: ws => ws.foldl (fun lines x => (placeWord p lines x).getD lines) (firstLines p label w).1

/-- R53: the label a unit created now would take: the entry's, when the flag is set and the label is not empty. -/
def offeredLabel (pendingLabel : Bool) (e : StyleEntry) : Option Text :=
  if pendingLabel ∧ e.label ≠ [] then some e.label else none

/-- R53: the unit a word creates. -/
def newUnit (l : LaneId) (p : Params) (e : StyleEntry) (pendingLabel : Bool) (origin : Origin)
    (firstArrival : Option Nat) (onset : Option Int) (w : CapWord) : CaptionUnit :=
  let laid := firstLines p (offeredLabel pendingLabel e) w
  { lane := l, lines := laid.1, words := [w], style := e.style, label := laid.2, origin := origin,
    firstArrival := firstArrival, onset := onset, closeFrame := none, closeCause := none, cut := false }

/-- The style table's entry of an index; the tables' indices are 0 to 15 (R54, log entry 18). -/
def LaneEnv.entry (env : LaneEnv) (i : Nat) : StyleEntry := (env.styles[i]?).getD StyleEntry.plain

/-- The writer of a unit, absent for SCRIPT (R80, R82). -/
def CaptionUnit.writer (u : CaptionUnit) : Option WriterId :=
  match u.origin with
  | .live w => some w
  | .script _ => none

end Sys2Proof.Machine
end

