-- ==== Sys2Proof/Machine/Display.lean ====
section
/-! DEFINITION. The display set of a lane: composition, release, blanking, CUT marks and clears (R94 to R103, R109). -/

namespace Sys2Proof.Machine

/-- A blank image has no rows (R94). -/
def Image.isBlank (i : Image) : Bool := i.rows.isEmpty

/-- The number of non-empty rows of an image (R115). -/
def Image.filled (i : Image) : Nat := (i.rows.filter Option.isSome).length

/-- R100: the serial after the next change of the air image, from 65,535 to 0. -/
def nextSerial (n : Nat) : Nat := (n + 1) % 65536

/-- The last `n` of a list, with fillers before it when it is shorter. -/
def lastPadded {α : Type} (n : Nat) (filler : α) (xs : List α) : List α :=
  (List.replicate n filler ++ xs).drop xs.length

/-- R97, R98: the rows of the image composed of a unit: in BLOCK mode its lines fill the bottom rows, in ROLL mode the air
image's rows move up and the unit's line becomes the bottom row. -/
def composedRows (p : Params) (air : Image) (u : CaptionUnit) : List (Option Row) :=
  match p.mode with
  | .block => lastPadded p.rows none (u.lines.map fun t => some { text := t, style := u.style })
  | .roll => lastPadded (p.rows - 1) none air.rows ++ [some { text := u.lines.getLastD [], style := u.style }]

/-- The image composed of a timed unit (R96 to R98). -/
def composedImage (p : Params) (air : Image) (t : TimedUnit) : Image :=
  { rows := composedRows p air t.unit, release := some t.release, cut := t.unit.cut, serial := none, unit := some t }

/-- R96: composition, when its three conditions hold: next not ready, not FROZEN, queue not empty. The compose and next
buffers are exchanged (R95). -/
def compose (r : LaneRun) : LaneRun :=
  if r.lane.display.nextReady ∨ r.lane.frozen then r
  else match r.lane.engine.queue with
    | [] => r
    | t :: rest =>
      r.edit fun ln =>
        { ln with
          engine := { ln.engine with queue := rest }
          display := { ln.display with
            compose := ln.display.next
            next := composedImage ln.params ln.display.air t
            nextReady := true } }

/-- R100: a change of the air image: the release serial advances and is given to the image. -/
def DisplaySet.changeAir (d : DisplaySet) (air : Image) : DisplaySet :=
  { d with air := { air with serial := some (nextSerial d.serial) }, serial := nextSerial d.serial, changed := true }

/-- R99, R125: the release of the next image: next and air are exchanged, and the release is counted. -/
def releaseNext (env : LaneEnv) (r : LaneRun) : LaneRun :=
  r.edit fun ln =>
    { ln with
      display := { ln.display.changeAir ln.display.next with
        next := ln.display.air, nextReady := false, onAir := env.sfc }
      counters := { ln.counters with released := saturate (ln.counters.released + 1) } }

/-- R101: every row but the bottom one made empty. -/
def emptyUpperRows (rows : List (Option Row)) : List (Option Row) :=
  List.replicate (rows.length - 1) none ++ rows.drop (rows.length - 1)

/-- R101: the air image is blanked; in ROLL mode the older rows of a ready next image are emptied with it. -/
def blankAir (r : LaneRun) : LaneRun :=
  r.edit fun ln =>
    let d := ln.display.changeAir (Image.blank none)
    { ln with
      display :=
        if ln.params.mode = .roll ∧ d.nextReady then { d with next := { d.next with rows := emptyUpperRows d.next.rows } }
        else d }

/-- R99: an inserter request at this SFC releases. -/
def releaseDue (env : LaneEnv) (ln : Lane) : Bool :=
  !ln.frozen && !ln.held && ln.display.nextReady && decide ((ln.display.next.release.getD 0) ≤ env.sfc)

/-- R101: an inserter request at this SFC that does not release blanks. -/
def blankDue (env : LaneEnv) (ln : Lane) : Bool :=
  !ln.frozen && !ln.display.air.isBlank && decide (ln.display.onAir + ln.params.hClear ≤ env.sfc)

/-- R109: what CLEAR, JOIN and SPLIT do to the display set. -/
def DisplaySet.cleared (d : DisplaySet) : DisplaySet :=
  if d.air.isBlank then { d with nextReady := false, changed := true }
  else { d.changeAir (Image.blank none) with nextReady := false }

/-- A timed unit with its CUT mark set. -/
def TimedUnit.marked (t : TimedUnit) : TimedUnit := { t with unit := { t.unit with cut := true } }

/-- A timed unit is the one the last-timed record refers to. -/
def TimedUnit.named (t : TimedUnit) (ref : Nat) : Bool := decide (t.ref = ref)

/-- An image whose unit has just been cut (R102). -/
def Image.marked (i : Image) : Image := { i with cut := true, unit := i.unit.map TimedUnit.marked }

/-- The unit of an image is the one the record refers to. -/
def Image.holds (i : Image) (ref : Nat) : Bool :=
  match i.unit with
  | some t => t.named ref
  | none => false

/-- R80: the unit the record refers to, where it still stands in the timed queue, in a ready next buffer or on air. -/
def Lane.standing (ln : Lane) (ref : Nat) : Option TimedUnit :=
  match ln.engine.queue.find? (fun t => t.named ref) with
  | some t => some t
  | none =>
    if ln.display.nextReady ∧ ln.display.next.holds ref then ln.display.next.unit
    else if ln.display.air.holds ref then ln.display.air.unit
    else none

/-- R80, R102: the CUT mark is set on the named unit, and on the image of the buffer where it stands. -/
def Lane.markCut (ln : Lane) (ref : Nat) : Lane :=
  let d := ln.display
  let d := if d.nextReady ∧ d.next.holds ref then { d with next := d.next.marked } else d
  let d := if d.air.holds ref then d.changeAir d.air.marked else d
  { ln with
    engine := { ln.engine with queue := ln.engine.queue.map fun t => if t.named ref then t.marked else t }
    display := d }

end Sys2Proof.Machine
end

