-- ==== Sys2Proof/Machine/Timing.lean ====
section
/-! DEFINITION. The timing engine of a lane: the arithmetic of R74 to R79, the cut, the queue and the hand-over (R80 to
R83). -/

namespace Sys2Proof.Machine

/-- R74: the desired frame d = s + D − A. -/
def desiredFrame (p : Params) (onset : Int) : Int := onset + p.delay - p.lead

/-- R74: the base frame b = max(d, now). -/
def baseFrame (p : Params) (onset : Int) (now : Nat) : Nat := (max (desiredFrame p onset) now).toNat

/-- R75: the queue-free frame q = R_last + m′_last, absent without a record. -/
def queueFree (record : Option LastTimed) : Option Nat := record.map fun x => x.release + x.minimum

/-- R75: the lateness λ = max(0, q − b), 0 when q is absent. -/
def lateness (record : Option LastTimed) (base : Nat) : Nat :=
  match queueFree record with
  | none => 0
  | some q => q - base

/-- R76: the catch-up level. -/
def catchUp (p : Params) (late : Nat) : CatchUp :=
  if late ≤ p.lam1 then .level0 else if late ≤ p.lam2 then .level1 else .level2

/-- The least integer not below a quotient (spec/00_scope.md, Symbols). -/
def ceilDiv (a b : Nat) : Nat := (a + b - 1) / b

/-- R77: the base minimum m of a unit of n characters. -/
def baseMinimum (p : Params) (rate : Rate) (n : Nat) : Nat :=
  clamp p.hMin p.hMax (ceilDiv (n * rate.hz) p.readingRate)

/-- R78: the base minimum compressed by the catch-up level. -/
def compressed (level : CatchUp) (m : Nat) : Nat :=
  match level with
  | .level0 => m
  | .level1 => ceilDiv (3 * m) 4
  | .level2 => ceilDiv m 2

/-- R78: the effective minimum m′. -/
def effectiveMinimum (p : Params) (level : CatchUp) (m : Nat) : Nat := max (compressed level m) p.hFloor

/-- R79: the release frame R. -/
def releaseFrame (p : Params) (record : Option LastTimed) (base late : Nat) : Nat :=
  let r := base + min late p.lamMax
  match record with
  | none => r
  | some x => max r (x.release + 1)

/-- R74 to R79: the unit as timed at `now` against the lane's record. -/
def timedUnit (p : Params) (rate : Rate) (e : Engine) (now : Nat) (u : CaptionUnit) : TimedUnit :=
  let base := baseFrame p (u.onset.getD 0) now
  let late := lateness e.record base
  let level := catchUp p late
  { unit := u, base := base, level := level
    minimum := effectiveMinimum p level (baseMinimum p rate u.count)
    release := releaseFrame p e.record base late
    ref := e.nextRef }

/-- R80: the unit the record names is cut, when it still stands and its mark is clear. -/
def cutNamed (env : LaneEnv) (ref value : Nat) (r : LaneRun) : LaneRun :=
  match r.lane.standing ref with
  | none => r
  | some t =>
    if t.unit.cut then r
    else
      ((r.edit (Lane.markCut · ref)).edit fun ln =>
        { ln with counters := { ln.counters with cut := saturate (ln.counters.cut + 1) } }).emit env .unitCut
          t.unit.writer (some value)

/-- R80: the previous unit is cut when the lateness exceeds Λmax. -/
def cutIfLate (env : LaneEnv) (t : TimedUnit) (r : LaneRun) : LaneRun :=
  match r.lane.engine.record with
  | none => r
  | some x =>
    if r.lane.params.lamMax < lateness (some x) t.base then
      cutNamed env x.ref (x.release + x.minimum - t.release) r
    else r

/-- R82: a full queue discards its head. -/
def discardHead (env : LaneEnv) (now : Nat) (r : LaneRun) : LaneRun :=
  match r.lane.engine.queue with
  | [] => r
  | h :: rest =>
    (r.edit fun ln =>
      { ln with
        engine := { ln.engine with queue := rest }
        counters := { ln.counters with discarded := saturate (ln.counters.discarded + 1) } }).emit env
          .queueFullDiscard h.unit.writer (some (min (now - h.release) 4294967295))

/-- R81, R82: the record and the level take the new unit's values, and the unit joins the queue. -/
def appendTimed (env : LaneEnv) (now : Nat) (t : TimedUnit) (r : LaneRun) : LaneRun :=
  let r := r.edit fun ln =>
    { ln with engine := { ln.engine with
        record := some { release := t.release, minimum := t.minimum, ref := t.ref }
        level := t.level
        nextRef := t.ref + 1 } }
  let r := if Config.queueCapacity ≤ r.lane.engine.queue.length then discardHead env now r else r
  r.edit fun ln => { ln with engine := { ln.engine with queue := ln.engine.queue ++ [t] } }

/-- R38: a word joins the recent-word window, which keeps its newest 12 entries. -/
def joinWindow (window : List Text) (t : Text) : List Text :=
  let w := window ++ [t]
  w.drop (w.length - Config.windowCapacity)

/-- R83: the words of a SCRIPT unit join the recent-word window as the unit is timed. -/
def joinScriptWords (u : CaptionUnit) (r : LaneRun) : LaneRun :=
  match u.origin with
  | .live _ => r
  | .script _ =>
    r.edit fun ln =>
      { ln with builder := { ln.builder with recent := (u.words.map CapWord.text).foldl joinWindow ln.builder.recent } }

/-- R73 to R83: a unit is timed at `now`. -/
def timeUnit (env : LaneEnv) (now : Nat) (u : CaptionUnit) (r : LaneRun) : LaneRun :=
  let t := timedUnit r.lane.params env.rate r.lane.engine now u
  compose (joinScriptWords u (appendTimed env now t (cutIfLate env t r)))

end Sys2Proof.Machine
end

