-- ==== Sys2Proof/Machine/Builder.lean ====
section
/-! DEFINITION. The lane builder: closing, timing from the provisional list, word placement, speaker changes and deletions
(R51 to R68). -/

namespace Sys2Proof.Machine

/-- The builder of a lane at work, changed as given. -/
def LaneRun.editBuilder (r : LaneRun) (f : Builder → Builder) : LaneRun :=
  r.edit fun ln => { ln with builder := f ln.builder }

/-- R62: the provisional units at the head whose window end is at or below SFC are timed, head first. -/
def timeDue (env : LaneEnv) (r : LaneRun) : LaneRun :=
  let prov := r.lane.builder.provisional
  let due := prov.takeWhile fun p => decide (p.windowEnd ≤ env.sfc)
  let rest := prov.dropWhile fun p => decide (p.windowEnd ≤ env.sfc)
  due.foldl (fun r p => timeUnit env env.sfc p.unit r) (r.editBuilder fun b => { b with provisional := rest })

/-- R64: every provisional unit is timed, head first, whatever its window end. -/
def timeAll (env : LaneEnv) (r : LaneRun) : LaneRun :=
  r.lane.builder.provisional.foldl (fun r p => timeUnit env env.sfc p.unit r)
    (r.editBuilder fun b => { b with provisional := [] })

/-- R63: the head of a full provisional list is timed, and PROVISIONAL_OVERFLOW is queued for it. Its value, the frames cut
from the head's window, is at least 1, also where the window ends at this very SFC (log entry 8). -/
def forceHead (env : LaneEnv) (r : LaneRun) : LaneRun :=
  match r.lane.builder.provisional with
  | [] => r
  | p :: rest =>
    (timeUnit env env.sfc p.unit (r.editBuilder fun b => { b with provisional := rest })).emit env .provisionalOverflow
      p.unit.writer (some (max 1 (p.windowEnd - env.sfc)))

/-- R57a, R63, R62: the open unit, if there is one, closes with this cause and joins the provisional list. -/
def closeOpen (env : LaneEnv) (cause : CloseCause) (r : LaneRun) : LaneRun :=
  match r.lane.builder.openUnit with
  | none => r
  | some u =>
    let closed : Provisional :=
      { unit := { u with closeFrame := some env.sfc, closeCause := some cause }
        windowEnd := env.sfc + r.lane.params.correction }
    let r := r.editBuilder fun b => { b with openUnit := none, flush := none }
    let r := if Config.provisionalCapacity ≤ r.lane.builder.provisional.length then forceHead env r else r
    timeDue env (r.editBuilder fun b => { b with provisional := b.provisional ++ [closed] })

/-- R53, R60: a word creates the open unit; the pending-label flag is cleared. -/
def createUnit (env : LaneEnv) (w : CapWord) (arrival : Nat) (writer : WriterId) (lag : Nat) (r : LaneRun) : LaneRun :=
  r.edit fun ln =>
    { ln with builder := { ln.builder with
        openUnit := some (newUnit env.lane ln.params (env.entry ln.builder.style) ln.builder.pendingLabel
          (.live writer) (some arrival) (some ((arrival : Int) - lag)) w)
        pendingLabel := false } }

/-- R51: the word joins the recent-word window (R38) and restarts the flush timer (R58). -/
def wordPlaced (env : LaneEnv) (w : CapWord) (r : LaneRun) : LaneRun :=
  r.edit fun ln =>
    { ln with builder := { ln.builder with
        recent := joinWindow ln.builder.recent w.text
        flush := some (env.sfc + ln.params.flush) } }

/-- R51, R52: a word is handed to the builder. -/
def layWord (env : LaneEnv) (w : CapWord) (arrival : Nat) (writer : WriterId) (lag : Nat) (r : LaneRun) : LaneRun :=
  wordPlaced env w <|
    match r.lane.builder.openUnit with
    | none => createUnit env w arrival writer lag r
    | some u =>
      match placeWord r.lane.params u.lines w with
      | some lines =>
        r.editBuilder fun b => { b with openUnit := some { u with lines := lines, words := u.words ++ [w] } }
      | none => createUnit env w arrival writer lag (closeOpen env .full r)

/-- R57: a speaker change with an index reaches the builder. -/
def speakerChange (env : LaneEnv) (writer : WriterId) (index : Byte) (r : LaneRun) : LaneRun :=
  let r := closeOpen env .speaker r
  let r :=
    if index.toNat < env.styleLimit then r.editBuilder fun b => { b with style := index.toNat }
    else (r.editBuilder fun b => { b with style := 0 }).emit env .styleLimit (some writer) (some index.toNat)
  r.editBuilder fun b => { b with pendingLabel := true }

/-- R58: the flush timer has reached its expiry SFC. -/
def flushDue (env : LaneEnv) (ln : Lane) : Bool :=
  match ln.builder.flush with
  | none => false
  | some x => decide (x ≤ env.sfc)

/-- R58: the flush timer expires and the open unit closes with cause FLUSH. -/
def flushExpiry (env : LaneEnv) (r : LaneRun) : LaneRun :=
  if flushDue env r.lane then
    closeOpen env .flush r |>.editBuilder fun b => { b with flush := none }
  else r

/-- R66: a unit that has lost its last word, none when no word remains. -/
def CaptionUnit.shortened (u : CaptionUnit) (p : Params) : Option CaptionUnit :=
  match u.words.dropLast with
  | [] => none
  | w :: ws => some { u with words := w :: ws, lines := layLines p u.label (w :: ws) }

/-- R65, R66, R39: the newest word within reach is removed; none when no word remains within reach. -/
def deleteOne (p : Params) (b : Builder) : Option Builder :=
  match b.openUnit with
  | some u =>
    match u.shortened p with
    | some v => some { b with openUnit := some v, recent := b.recent.dropLast }
    | none =>
      some { b with
        openUnit := none, flush := none, recent := b.recent.dropLast
        pendingLabel := b.pendingLabel || u.label.isSome }
  | none =>
    match b.provisional.getLast? with
    | none => none
    | some q =>
      match q.unit.shortened p with
      | some v =>
        some { b with provisional := b.provisional.dropLast ++ [{ q with unit := v }], recent := b.recent.dropLast }
      | none =>
        some { b with
          provisional := b.provisional.dropLast, recent := b.recent.dropLast
          pendingLabel := b.pendingLabel || q.unit.label.isSome }

/-- R65, R67: up to n words are removed; the builder left, and the unreached count u. -/
def deleteWords (p : Params) : Nat → Builder → Builder × Nat
  | 0, b => (b, 0)
  | n + 1, b =>
    match deleteOne p b with
    | none => (b, n + 1)
    | some b' => deleteWords p n b'

/-- R65, R67: a DELETE of the on-air writer. -/
def laneDelete (env : LaneEnv) (writer : WriterId) (n : Nat) (r : LaneRun) : LaneRun :=
  let (b, u) := deleteWords r.lane.params n r.lane.builder
  let r := r.editBuilder fun _ => b
  if u = 0 then r
  else
    (r.edit fun ln => { ln with counters := { ln.counters with late := saturate (ln.counters.late + u) } }).emit env
      .lateCorrection (some writer) (some u)

/-- R68: the builder emptied; CLEAR keeps the style state, the other events do not. -/
def Builder.emptied (b : Builder) (keepStyle : Bool) : Builder :=
  { openUnit := none, provisional := [], recent := [], flush := none
    style := if keepStyle then b.style else 0
    pendingLabel := if keepStyle then b.pendingLabel else false }

/-- R85: the timed queue emptied, the record absent, the level 0. -/
def Engine.emptied (e : Engine) : Engine := { queue := [], record := none, level := .level0, nextRef := e.nextRef }

end Sys2Proof.Machine
end

