-- ==== Sys2Proof/Machine/ScriptText.lean ====
section
/-! DEFINITION. Reading script text (R141) and laying it out into units (R158). -/

namespace Sys2Proof.Machine

/-- What the text of a segment reads as (R141, R158): words, unit breaks and speaker changes. -/
inductive ScriptToken where
  | word (w : CapWord)
  | brk
  | speaker (index : Nat)
deriving DecidableEq, Repr

/-- The reader part-way through a text: the word piece being read, whether it follows a full piece of the same word,
whether the character before was 0x1E, and the tokens so far. -/
structure ScriptReader where
  piece : Text
  attach : Bool
  code : Bool
  out : List ScriptToken
deriving DecidableEq, Repr

/-- The text of a page: up to its first 0x00 (R141). -/
def pageText (chars : List Byte) : Text := chars.takeWhile fun c => decide (c ≠ 0)

/-- R141: the style index that '0' to '9' or 'A' to 'F' names in hexadecimal. -/
def hexIndex (c : Byte) : Option Nat :=
  if 0x30 ≤ c.toNat ∧ c.toNat ≤ 0x39 then some (c.toNat - 0x30)
  else if 0x41 ≤ c.toNat ∧ c.toNat ≤ 0x46 then some (c.toNat - 0x41 + 10)
  else none

/-- The word being read ends. -/
def ScriptReader.endWord (r : ScriptReader) : ScriptReader :=
  if r.piece = [] then { r with attach := false }
  else { r with piece := [], attach := false, out := r.out ++ [.word { text := r.piece, attach := r.attach }] }

/-- R141, R158: a character of a word, substituted where it is outside 0x21 to 0x7E; the 25th character of a word begins a
piece that carries ATTACH. -/
def ScriptReader.letter (r : ScriptReader) (c : Byte) : ScriptReader :=
  if r.piece.length < Config.wordMax then { r with piece := r.piece ++ [substitute c] }
  else
    { r with piece := [substitute c], attach := true
             out := r.out ++ [.word { text := r.piece, attach := r.attach }] }

/-- R141: a character read normally. -/
def ScriptReader.plain (r : ScriptReader) (c : Byte) : ScriptReader :=
  if c = 0x1E then { r with code := true }
  else if c = 0x20 then r.endWord
  else if c = 0x0A then let r := r.endWord; { r with out := r.out ++ [.brk] }
  else r.letter c

/-- R141: one character of the text. A 0x1E that begins no speaker code is an ordinary character, and the character after
it is read normally. -/
def ScriptReader.read (r : ScriptReader) (c : Byte) : ScriptReader :=
  if r.code then
    match hexIndex c with
    | some i => let r := { r with code := false }.endWord; { r with out := r.out ++ [.speaker i] }
    | none => ({ r with code := false }.letter 0x1E).plain c
  else r.plain c

/-- R141: the whole text read. A 0x1E that is its last character is an ordinary character. -/
def readScript (t : Text) : List ScriptToken :=
  let r := t.foldl ScriptReader.read { piece := [], attach := false, code := false, out := [] }
  let r := if r.code then { r with code := false }.letter 0x1E else r
  r.endWord.out

/-- The layout part-way through a text (R158): the unit being laid out, the units closed so far, the layout's own style
index and pending-label flag, and the indices that met the style limit. -/
structure ScriptLayout where
  current : Option CaptionUnit
  done : List CaptionUnit
  style : Nat
  pendingLabel : Bool
  limited : List Nat
deriving DecidableEq, Repr

/-- R158: the unit being laid out, if any, closes with this cause. -/
def ScriptLayout.close (y : ScriptLayout) (cause : CloseCause) : ScriptLayout :=
  match y.current with
  | none => y
  | some u => { y with current := none, done := y.done ++ [{ u with closeCause := some cause }] }

/-- R158, R53: a word creates a script unit. -/
def ScriptLayout.create (y : ScriptLayout) (env : LaneEnv) (p : Params) (segment : Nat) (w : CapWord) : ScriptLayout :=
  { y with
    current := some (newUnit env.lane p (env.entry y.style) y.pendingLabel (.script segment) none none w)
    pendingLabel := false }

/-- R158: one token laid out. -/
def ScriptLayout.lay (env : LaneEnv) (p : Params) (segment : Nat) (y : ScriptLayout) : ScriptToken → ScriptLayout
  | .word w =>
    match y.current with
    | none => y.create env p segment w
    | some u =>
      match placeWord p u.lines w with
      | some lines => { y with current := some { u with lines := lines, words := u.words ++ [w] } }
      | none => (y.close .full).create env p segment w
  | .brk => y.close .brk
  | .speaker i =>
    let y := y.close .speaker
    if i < env.styleLimit then { y with style := i, pendingLabel := true }
    else { y with style := 0, pendingLabel := true, limited := y.limited ++ [i] }

/-- R158: the segment's text laid out: the units in the order they close, and the indices that met the style limit. -/
def layoutScript (env : LaneEnv) (p : Params) (segment : Nat) (t : Text) : List CaptionUnit × List Nat :=
  let y := ((readScript t).foldl (ScriptLayout.lay env p segment)
    { current := none, done := [], style := 0, pendingLabel := false, limited := [] }).close .brk
  (y.done, y.limited)

end Sys2Proof.Machine
end

