-- ==== Sys2Proof/Machine/DeckPlayer.lean ====
section
/-! DEFINITION. The deck player: the take, pacing, feeding, exhaustion and the events that reach a deck (R157 to R169). -/

namespace Sys2Proof.Machine

/-- A deck in a state without units: next index, pacing and onsets have no value (R157, R167). -/
def Deck.without (d : Deck) (state : DeckState) : Deck :=
  { state := state, units := [], nextIndex := none, pacing := none, onsets := [], pendingTake := d.pendingTake }

/-- The deck of a lane at work, changed as given. -/
def LaneRun.editDeck (r : LaneRun) (f : Deck → Deck) : LaneRun :=
  r.edit fun ln => { ln with deck := f ln.deck }

/-- R167: a PLAYING deck with no unit left is exhausted. -/
def exhaust (env : LaneEnv) (segment : Nat) (r : LaneRun) : LaneRun :=
  if r.lane.deck.units = [] then
    (r.edit fun ln => { ln with deck := ln.deck.without .empty, source := .live }).emit env .segmentEnd none (some segment)
  else r

/-- R164, R166, R167: the deck unit at the head is removed from the deck and timed now with this onset. -/
def timeDeckUnit (env : LaneEnv) (segment : Nat) (u : CaptionUnit) (onset : Nat) (r : LaneRun) : LaneRun :=
  let r := r.editDeck fun d =>
    { d with units := d.units.drop 1, nextIndex := d.nextIndex.map (· + 1), onsets := d.onsets.drop 1 }
  exhaust env segment (timeUnit env env.sfc { u with onset := some (onset : Int) } r)

/-- R166: an AUTO deck moves its next unit while the timed queue has a free place; at most so many units. -/
def feedUpTo (env : LaneEnv) : Nat → LaneRun → LaneRun
  | 0, r => r
  | n + 1, r =>
    match r.lane.deck.state, r.lane.deck.pacing, r.lane.deck.units with
    | .playing segment, some .auto, u :: _ =>
      if r.lane.engine.queue.length < Config.queueCapacity then
        feedUpTo env n (timeDeckUnit env segment u (r.lane.deck.onsets.headD env.sfc) r)
      else r
    | _, _, _ => r

/-- R166: the deck player moves units into whatever places are free. -/
def feed (env : LaneEnv) (r : LaneRun) : LaneRun := feedUpTo env r.lane.deck.units.length r

/-- R96 and R166: composition if its conditions hold, then the deck player feeds the places freed. -/
def composeAndFeed (env : LaneEnv) (r : LaneRun) : LaneRun := feed env (compose r)

/-- R165: the pacing onsets of the deck, from the first onset on. -/
def pacingOnsets (p : Params) (rate : Rate) : Nat → List CaptionUnit → List Nat
  | _, [] => []
  | s, u :: us => s :: pacingOnsets p rate (s + baseMinimum p rate u.count) us

/-- R162 (log entry 25): a take is carried out: live text closes and is timed, the source changes, units begin to move. -/
def carryOutTake (env : LaneEnv) (segment cueFrame : Nat) (r : LaneRun) : LaneRun :=
  let r := timeAll env (closeOpen env .take r)
  let pacing := r.lane.params.pacing
  let r := r.edit fun ln =>
    { ln with
      source := .script
      deck := { ln.deck with
        state := .playing segment, nextIndex := some 0, pacing := some pacing
        onsets := match pacing with
          | .stepped => []
          | .auto => pacingOnsets ln.params env.rate cueFrame ln.deck.units } }
  match r.lane.deck.units, pacing with
  | [], _ => exhaust env segment r
  | u :: _, .stepped => timeDeckUnit env segment u cueFrame r
  | _ :: _, .auto => feed env r

/-- R132: the deck player refuses a cue on the lane. -/
def refuseCue (env : LaneEnv) (reason : Reason) (tag : Nat) (r : LaneRun) : LaneRun :=
  r.emit env (.refuse reason) none (some tag)

/-- R161: a TAKE cue on a RUNNING lane; `following` says that the lane is lane 1 and FOLLOWING. -/
def laneTake (following : Bool) (segment tag : Nat) (env : LaneEnv) (r : LaneRun) : LaneRun :=
  if following then refuseCue env .following tag r
  else match r.lane.deck.state, r.lane.deck.pendingTake with
    | .ready g, _ => if g = segment then carryOutTake env segment env.sfc r else refuseCue env .takeRefused tag r
    | .preparing g, none =>
      if g = segment then r.editDeck fun d => { d with pendingTake := some { frame := env.sfc, tag := tag } }
      else refuseCue env .takeRefused tag r
    | _, _ => refuseCue env .takeRefused tag r

/-- R164: an ADVANCE cue on a RUNNING lane. -/
def laneAdvance (tag : Nat) (env : LaneEnv) (r : LaneRun) : LaneRun :=
  match r.lane.deck.state, r.lane.deck.pacing, r.lane.deck.units with
  | .playing segment, some .stepped, u :: _ => timeDeckUnit env segment u env.sfc r
  | _, _, _ => refuseCue env .takeRefused tag r

/-- R163: a pending take, if held, is dropped with TAKE_ABANDONED. -/
def dropTake (env : LaneEnv) (r : LaneRun) : LaneRun :=
  match r.lane.deck.pendingTake with
  | none => r
  | some t => (r.editDeck fun d => { d with pendingTake := none }).emit env .takeAbandoned none (some t.tag)

/-- R129, R168, R169: a PLAYING deck ends without SEGMENT_END. -/
def endPlaying (r : LaneRun) : LaneRun :=
  match r.lane.deck.state with
  | .playing _ => r.edit fun ln => { ln with deck := ln.deck.without .empty, source := .live }
  | _ => r

/-- R168: an END cue on a RUNNING lane. -/
def laneEnd (tag : Nat) (env : LaneEnv) (r : LaneRun) : LaneRun :=
  match r.lane.deck.state, r.lane.deck.pendingTake with
  | .playing _, _ => endPlaying r
  | .preparing _, some _ => dropTake env r
  | _, _ => refuseCue env .takeRefused tag r

/-- R160: a change of layout invalidates a READY deck. -/
def invalidateDeck (env : LaneEnv) (r : LaneRun) : LaneRun :=
  match r.lane.deck.state with
  | .ready g => (r.editDeck fun d => d.without .empty).emit env .deckInvalidated none (some g)
  | _ => r

/-- R158: the deck READY with the units laid out, at most 48. -/
def Deck.laidOut (d : Deck) (segment : Nat) (units : List CaptionUnit) : Deck :=
  { d.without (.ready segment) with units := units.take Config.deckCapacity }

/-- R159: the deck player's own reports of a layout, in order. -/
def layoutReports (env : LaneEnv) (units : List CaptionUnit) (limited : List Nat) (r : LaneRun) : LaneRun :=
  let r := limited.foldl (fun r i => r.emit env .styleLimit none (some i)) r
  if Config.deckCapacity < units.length then
    r.emit env .deckTruncated none (some (units.length - Config.deckCapacity))
  else r

/-- R159, R162, R163: the pending take, if held, is carried out at the completion. -/
def carryOutPending (env : LaneEnv) (segment : Nat) (r : LaneRun) : LaneRun :=
  match r.lane.deck.pendingTake with
  | none => r
  | some t => carryOutTake env segment t.frame (r.editDeck fun d => { d with pendingTake := none })

end Sys2Proof.Machine
end

