-- ==== Sys2Proof/Machine/LaneControl.lean ====
section
/-! DEFINITION. Lane control: freeze and hold, the retime, clears, following, the cues on a lane, the cue schedule and
automation withdraw (R116 to R137). -/

namespace Sys2Proof.Machine

/-! ## The retime -/

/-- R127: a waiting unit is stale at `now`. -/
def staleAt (p : Params) (now : Nat) (t : TimedUnit) : Bool := decide (t.base + p.stale < now)

/-- R127: the survivors' release frames raised in walk order, the first to at least `least`. -/
def raiseReleases : Nat → List TimedUnit → List TimedUnit
  | _, [] => []
  | least, t :: ts =>
    let t' := { t with release := max t.release least }
    t' :: raiseReleases (t'.release + t'.minimum) ts

/-- The unit of a ready next buffer, as the head of the walk. -/
def DisplaySet.nextUnit (d : DisplaySet) : Option TimedUnit := if d.nextReady then d.next.unit else none

/-- R127: the walk: the unit in a ready next buffer, then the timed queue. -/
def Lane.walk (ln : Lane) : List TimedUnit := ln.display.nextUnit.toList ++ ln.engine.queue

/-- R86, R108, R127: the lane after the walk at `now`. -/
def Lane.walked (ln : Lane) (now : Nat) : Lane :=
  let stale := staleAt ln.params now
  let survivors := raiseReleases now (ln.walk.filter fun t => !stale t)
  let record := match survivors.getLast? with
    | none => ln.engine.record
    | some t => some { release := t.release, minimum := t.minimum, ref := t.ref }
  match ln.display.nextUnit with
  | none =>
    { ln with
      engine := { ln.engine with queue := survivors, record := record }
      display := { ln.display with onAir := now } }
  | some t =>
    if stale t then
      { ln with
        engine := { ln.engine with queue := survivors, record := record }
        display := { ln.display with nextReady := false, onAir := now } }
    else
      { ln with
        engine := { ln.engine with queue := survivors.drop 1, record := record }
        display := { ln.display with
          next := { ln.display.next with
            release := survivors.head?.map TimedUnit.release, unit := survivors.head? }
          onAir := now } }

/-- R127, R128: the number of units a retime at `now` discards. -/
def Lane.staleCount (ln : Lane) (now : Nat) : Nat := (ln.walk.filter (staleAt ln.params now)).length

/-- R127, R128: the retime of a lane. UNITS_STALE is queued before the reports of the feeding that follows (log entry 12). -/
def retime (env : LaneEnv) (r : LaneRun) : LaneRun :=
  let k := r.lane.staleCount env.sfc
  let r := r.edit (Lane.walked · env.sfc)
  let r :=
    if k = 0 then r
    else
      (r.edit fun ln => { ln with counters := { ln.counters with stale := saturate (ln.counters.stale + k) } }).emit env
        .unitsStale none (some k)
  composeAndFeed env r

/-! ## The cues on a RUNNING lane -/

/-- R123. -/
def laneFreeze (r : LaneRun) : LaneRun := r.edit fun ln => { ln with frozen := true }

/-- R123, R126. -/
def laneThaw (env : LaneEnv) (r : LaneRun) : LaneRun :=
  if r.lane.frozen then
    let r := r.edit fun ln => { ln with frozen := false }
    if r.lane.held then composeAndFeed env r else retime env r
  else r

/-- R124. -/
def laneHold (r : LaneRun) : LaneRun := r.edit fun ln => { ln with held := true }

/-- R124, R126. -/
def laneResume (env : LaneEnv) (r : LaneRun) : LaneRun :=
  if r.lane.held then
    let r := r.edit fun ln => { ln with held := false }
    if r.lane.frozen then r else retime env r
  else r

/-- R125. -/
def laneStep (env : LaneEnv) (r : LaneRun) : LaneRun :=
  if r.lane.held ∧ ¬ r.lane.frozen ∧ r.lane.display.nextReady then composeAndFeed env (releaseNext env r) else r

/-- R129, R130, R131: the timeline emptied, the display cleared, the flags clear; the style state as R68 gives it. -/
def Lane.swept (ln : Lane) (keepStyle : Bool) : Lane :=
  { ln with
    builder := ln.builder.emptied keepStyle
    engine := ln.engine.emptied
    display := ln.display.cleared
    frozen := false
    held := false }

/-- R129: CLEAR; with the style state not kept, what JOIN does besides setting FOLLOWING (R130). -/
def laneClear (keepStyle : Bool) (env : LaneEnv) (r : LaneRun) : LaneRun :=
  dropTake env ((endPlaying (r.edit (Lane.swept · keepStyle))).edit fun ln => { ln with source := .live })

/-- R131: what SPLIT does on lane 1 besides clearing FOLLOWING; a PLAYING deck goes on into the emptied queue (R166,
log entry 19). -/
def laneSplit (env : LaneEnv) (r : LaneRun) : LaneRun := feed env (r.edit (Lane.swept · false))

/-- R116: START. -/
def laneStart (env : LaneEnv) (r : LaneRun) : LaneRun :=
  r.edit fun ln =>
    { ln with
      state := .running
      engine := { ln.engine with record := none, level := .level0 }
      display := DisplaySet.resetAt env.sfc }

/-- R117: STOP. -/
def laneStop (env : LaneEnv) (r : LaneRun) : LaneRun :=
  dropTake env ((endPlaying (r.edit fun ln =>
    { ln with
      state := .stopped
      builder := ln.builder.emptied false
      engine := ln.engine.emptied
      display := DisplaySet.resetAt env.sfc
      frozen := false
      held := false })).edit fun ln => { ln with source := .live })

/-- R120, R121, R132: a cue on a lane that is RUNNING; SPLIT and JOIN are the part's (`State.cueOnLane`). -/
def laneCue (following : Bool) (c : Cue) (env : LaneEnv) (r : LaneRun) : LaneRun :=
  match c.kind with
  | .freeze => laneFreeze r
  | .thaw => laneThaw env r
  | .hold => laneHold r
  | .step => laneStep env r
  | .resume => laneResume env r
  | .clear => laneClear true env r
  | .take => laneTake following c.segment c.tag env r
  | .advance => laneAdvance c.tag env r
  | .finish => laneEnd c.tag env r
  | .split => r
  | .join => r

/-! ## Cues and the part -/

/-- Lane 1 while FOLLOWING. -/
def State.follows (s : State) (l : LaneId) : Bool :=
  match l with
  | .lane0 => false
  | .lane1 => s.following

/-- A lane is RUNNING. -/
def State.running (s : State) (l : LaneId) : Bool := decide ((s.lane l).state = .running)

/-- R130: JOIN on lane 1. The followed serial and status have no value before the first DISPLAY reply (R107, log entry 13). -/
def State.join (s : State) : State :=
  let s' := s.onLane .lane1 (laneClear false)
  if s.following then s' else { s' with following := true, followedSerial := none, followedStatus := none }

/-- R131: SPLIT on lane 1. -/
def State.split (s : State) : State := ({ s with following := false }).onLane .lane1 laneSplit

/-- R120, R121: a cue on one addressed lane. -/
def State.cueOnLane (c : Cue) (l : LaneId) (s : State) : State :=
  match c.kind, l with
  | .join, .lane1 => s.join
  | .split, .lane1 => s.split
  | _, _ => if s.running l then s.onLane l (laneCue (s.follows l) c) else s

/-- R120: a lane is addressed by a group mask. -/
def State.addressed (s : State) (mask : Byte) (l : LaneId) : Bool :=
  decide (mask = 0) || decide (mask &&& BitVec.ofNat 8 (s.lane l).params.group ≠ 0)

/-- R120: a cue on one lane, if the lane is addressed. -/
def State.cueIfAddressed (c : Cue) (l : LaneId) (s : State) : State :=
  if s.addressed c.mask l then s.cueOnLane c l else s

/-- R120: a cue is carried out, on lane 0 first and then on lane 1. -/
def State.executeCue (s : State) (c : Cue) : State := (s.cueIfAddressed c .lane0).cueIfAddressed c .lane1

/-- R119: a new entry stands after every entry whose target is at or below its own. -/
def insertCue : List ScheduledCue → ScheduledCue → List ScheduledCue
  | [], c => [c]
  | e :: es, c => if e.target ≤ c.target then e :: insertCue es c else c :: e :: es

/-- R119: the entries that are due at this SFC, and the entries left. -/
def dueCues (sfc : Nat) (es : List ScheduledCue) : List ScheduledCue × List ScheduledCue :=
  (es.takeWhile fun e => decide (e.target ≤ sfc), es.dropWhile fun e => decide (e.target ≤ sfc))

/-! ## Automation withdraw (R136) -/

/-- R136: a READY or PLAYING deck becomes EMPTY and the source LIVE. -/
def withdrawDeck (r : LaneRun) : LaneRun :=
  r.edit fun ln =>
    { ln with
      source := .live
      deck := match ln.deck.state with
        | .ready _ => ln.deck.without .empty
        | .playing _ => ln.deck.without .empty
        | _ => ln.deck }

/-- R136: FROZEN and HELD cleared on a RUNNING lane, with a retime where one was set. -/
def withdrawFlags (env : LaneEnv) (r : LaneRun) : LaneRun :=
  if r.lane.state = .running ∧ (r.lane.frozen ∨ r.lane.held) then
    retime env (r.edit fun ln => { ln with frozen := false, held := false })
  else r

/-- R136: automation withdraw; `byExpiry` says that supervision expired. -/
def State.withdraw (s : State) (byExpiry : Bool) : State :=
  let s := (s.onLane .lane0 fun _ => withdrawDeck).onLane .lane1 fun _ => withdrawDeck
  let s := (s.onLane .lane0 withdrawFlags).onLane .lane1 withdrawFlags
  let s := (s.onLane .lane0 dropTake).onLane .lane1 dropTake
  ({ s with schedule := [], supervisionExpiry := none }).report .automationWithdraw none none
    (some (if byExpiry then 1 else 0))

end Sys2Proof.Machine
end

