-- ==== Sys2Proof/Machine/Writers.lean ====
section
/-! DEFINITION. Writer intake: roles, staging, the checks of a writer message, the relay handover, and the commands of the
writer links (R16 to R49). -/

namespace Sys2Proof.Machine

/-! ## Roles -/

/-- The four writers. -/
def allWriters : List WriterId := [.w0, .w1, .w2, .w3]

/-- The writer that holds a role; the law of roles leaves at most one (R16). -/
def State.holder (s : State) (r : Role) : Option WriterId := allWriters.find? fun w => decide ((s.writer w).role = r)

/-- R30: emptying a staging list: the entries, the pending marks and the overflow-reported mark. -/
def Writer.emptied (w : Writer) : Writer := { w with staging := [], marks := Marks.empty, overflowReported := false }

/-- R18, step 1: a writer leaves its role. -/
def State.leaveRole (s : State) (w : WriterId) : State :=
  let s' := match (s.writer w).role with
    | .onAir l => s.onLane l fun env => closeOpen env .handover
    | _ => s
  let x := s'.writer w
  s'.setWriter w { (match x.role with | .standby _ => x.emptied | _ => x) with role := .idle }

/-- R18: an ASSIGN of a writer to a role. -/
def State.assignRole (s : State) (w : WriterId) (x : Role) : State :=
  let s := s.leaveRole w
  match x with
  | .idle => s
  | _ =>
    let s := match s.holder x with
      | some v => s.leaveRole v
      | none => s
    let y := s.writer w
    s.setWriter w { (match x with | .standby _ => y.emptied | _ => y) with role := x }

/-- R19: a ROLE frame to each writer whose role differs from the role it had. -/
def announceChanges (before : PerWriter Writer) (s : State) : State :=
  allWriters.foldl (fun s w => if (before.get w).role = (s.writer w).role then s else s.announceRole w) s

/-! ## Staging -/

/-- R30: marks typed earlier folded with marks typed later. -/
def Marks.fold (earlier later : Marks) : Marks :=
  { brk := earlier.brk || later.brk, speaker := later.speaker.or earlier.speaker }

/-- The marks of some entries folded in the order they were typed (R30). -/
def foldMarks (es : List Staged) : Marks := es.foldl (fun m e => m.fold e.marks) Marks.empty

/-- Marks folded onto the entry that is oldest (R34, R44). -/
def foldOntoOldest (m : Marks) : List Staged → List Staged
  | [] => []
  | e :: es => { e with marks := m.fold e.marks } :: es

/-- R31, R34: a word is staged; the writer then, and whether the oldest entry was lost. -/
def Writer.stage (w : Writer) (text : Text) (attach : Bool) (arrival : Nat) : Writer × Bool :=
  let entry : Staged := { text := text, attach := attach, arrival := arrival, marks := w.marks }
  match w.staging with
  | [] => ({ w with staging := [entry], marks := Marks.empty }, false)
  | e :: es =>
    if Config.stagingCapacity ≤ (e :: es).length then
      ({ w with staging := foldOntoOldest e.marks (es ++ [entry]), marks := Marks.empty
                overflows := saturate (w.overflows + 1), overflowReported := true }, true)
    else ({ w with staging := e :: es ++ [entry], marks := Marks.empty }, false)

/-- R31, R34: a word of the standby writer of a lane is staged, with the report of an overflow. -/
def State.stageWord (s : State) (id : WriterId) (l : LaneId) (text : Text) (attach : Bool) : State :=
  let w := s.writer id
  let (w', lost) := w.stage text attach s.time.sfc
  let s := s.setWriter id w'
  if lost ∧ ¬ w.overflowReported then s.report .stagingOverflow (some l) (some id) (some w'.overflows) else s

/-- R33: the last n staged entries are removed, and their marks folded with the pending marks. -/
def Writer.unstage (w : Writer) (n : Nat) : Writer :=
  if w.staging = [] then w
  else
    let keep := w.staging.take (w.staging.length - n)
    let gone := w.staging.drop (w.staging.length - n)
    { w with
      staging := keep, marks := (foldMarks gone).fold w.marks
      overflowReported := if keep = [] then false else w.overflowReported }

/-! ## The relay handover (R40 to R48) -/

/-- R43: a letter folded to one case. -/
def foldCase (b : Byte) : Byte := if 0x61 ≤ b.toNat ∧ b.toNat ≤ 0x7A then b - 0x20 else b

/-- R43: the last k window entries equal the first k staged texts, pairwise in order. -/
def overlapsBy (window staged : List Text) (k : Nat) : Bool :=
  decide ((window.drop (window.length - k)).map (·.map foldCase) = (staged.take k).map (·.map foldCase))

/-- R43: the largest k up to a bound at which the two overlap. -/
def overlapUpTo (window staged : List Text) : Nat → Nat
  | 0 => 0
  | k + 1 => if overlapsBy window staged (k + 1) then k + 1 else overlapUpTo window staged k

/-- R43: the overlap k. -/
def overlap (window staged : List Text) : Nat :=
  overlapUpTo window staged (min Config.overlapMax (min staged.length window.length))

/-- R45: marks applied to the lane: a break, then a speaker change. -/
def applyMarks (env : LaneEnv) (id : WriterId) (m : Marks) (r : LaneRun) : LaneRun :=
  let r := if m.brk then closeOpen env .brk r else r
  match m.speaker with
  | none => r
  | some i => speakerChange env id i r

/-- R45: one staged entry is replayed onto the lane. -/
def replayEntry (env : LaneEnv) (id : WriterId) (lag : Nat) (r : LaneRun) (e : Staged) : LaneRun :=
  layWord env { text := e.text, attach := e.attach } e.arrival id lag (applyMarks env id e.marks r)

/-- R45: the remaining entries are replayed, then the pending marks. -/
def replay (id : WriterId) (lag : Nat) (es : List Staged) (m : Marks) (env : LaneEnv) (r : LaneRun) : LaneRun :=
  applyMarks env id m (es.foldl (replayEntry env id lag) r)

/-- Words suppressed are counted (R24, R46). -/
def suppressWords (n : Nat) (r : LaneRun) : LaneRun :=
  r.edit fun ln => { ln with counters := { ln.counters with suppressed := saturate (ln.counters.suppressed + n) } }

/-- R24: the on-air messages of a lane are suppressed. -/
def State.suppresses (s : State) (l : LaneId) : Bool := decide ((s.lane l).source = .script) || s.follows l

/-- R43: the overlap that the handover finds on the lane as it stands; 0 when there is no outgoing writer. -/
def State.overlapNow (s : State) (l : LaneId) (incoming : WriterId) (hasOutgoing : Bool) : Nat :=
  if hasOutgoing then overlap (s.lane l).builder.recent ((s.writer incoming).staging.map Staged.text) else 0

/-- R44 to R46: the first k staged entries are discarded and counted, their marks folded on, and the rest replayed or
suppressed. -/
def discardAndReplay (suppressed : Bool) (id : WriterId) (w : Writer) (k : Nat) (env : LaneEnv) (r : LaneRun) : LaneRun :=
  let r := r.edit fun ln => { ln with counters := { ln.counters with overlap := saturate (ln.counters.overlap + k) } }
  let folded := foldMarks (w.staging.take k)
  let rest := foldOntoOldest folded (w.staging.drop k)
  let marks := if rest = [] then folded.fold w.marks else w.marks
  if suppressed then suppressWords rest.length r else replay id w.lag rest marks env r

/-- R42 to R46: what a handover does to a RUNNING lane, and the overlap it found. -/
def State.relayLane (s : State) (l : LaneId) (incoming : WriterId) (hasOutgoing : Bool) : State × Nat :=
  let s := s.onLane l fun env => closeOpen env .handover
  let k := s.overlapNow l incoming hasOutgoing
  (s.onLane l (discardAndReplay (s.suppresses l) incoming (s.writer incoming) k), k)

/-- R41, R47: the roles are exchanged, and the incoming writer's staging list is emptied. -/
def State.exchangeRoles (s : State) (l : LaneId) (incoming : WriterId) (outgoing : Option WriterId) : State :=
  let s := s.setWriter incoming { (s.writer incoming).emptied with role := .onAir l }
  match outgoing with
  | none => s
  | some o => s.setWriter o { (s.writer o).emptied with role := .standby l }

/-- R40 to R48: the handover on a lane, to its STANDBY writer. -/
def State.relay (s : State) (l : LaneId) (incoming : WriterId) : State :=
  let outgoing := s.holder (.onAir l)
  let (s, k) := if s.running l then s.relayLane l incoming outgoing.isSome else (s, 0)
  let s := s.exchangeRoles l incoming outgoing
  let s := s.announceRole incoming
  let s := match outgoing with
    | none => s
    | some o => s.announceRole o
  s.report .handover (some l) (some incoming) (some k)

/-! ## Writer messages -/

/-- WORD (R182). -/
def wordKind : Byte := 0x10
/-- BREAK (R182). -/
def breakKind : Byte := 0x11
/-- SPEAKER (R182). -/
def speakerKind : Byte := 0x12
/-- DELETE (R182). -/
def deleteKind : Byte := 0x13
/-- TAKE of a writer (R182). -/
def takeKind : Byte := 0x14
/-- QUERY (R182). -/
def queryKind : Byte := 0x15

/-- R21, steps 4 to 7, for WORD, BREAK, SPEAKER and DELETE: the role is checked, then the fields (`bad` is the reason the
fields fail for, if they do), then suppression, then the message is acted on, by the builder of the lane or in staging. -/
def State.judgeMessage (s : State) (w : WriterId) (kind : Byte) (bad : Option Reason)
    (suppressed : State → LaneId → State) (onAir : State → LaneId → State) (staged : State → LaneId → State) : State :=
  match (s.writer w).role with
  | .idle => s.refuseWriter w .notAssigned kind
  | .onAir l =>
    if s.running l then
      match bad with
      | some reason => s.refuseWriter w reason kind
      | none => if s.suppresses l then suppressed s l else onAir s l
    else s.refuseWriter w .laneStopped kind
  | .standby l =>
    match bad with
    | some reason => s.refuseWriter w reason kind
    | none => staged s l

/-- R22: how many characters of a text are replaced. -/
def replacedCount (t : Text) : Nat := (t.filter fun b => !printable b).length

/-- R22: the SUBSTITUTED report of a word, if a character was replaced. -/
def State.reportSubstituted (s : State) (w : WriterId) (l : LaneId) (t : Text) : State :=
  if replacedCount t = 0 then s else s.report .substituted (some l) (some w) (some (replacedCount t))

/-- R21 to R24, R31: a WORD is taken. -/
def State.takeWord (s : State) (w : WriterId) (payload : List Byte) : State :=
  match payload with
  | [] => s.refuseWriter w .badLength wordKind
  | flags :: text =>
    let attach := flags.getLsbD 0
    let shown := text.map substitute
    s.judgeMessage w wordKind
      (if text.length < 1 ∨ Config.wordMax < text.length then some .badWord else none)
      (fun s l => s.onLane l fun _ => suppressWords 1)
      (fun s l =>
        (s.reportSubstituted w l text).onLane l fun env =>
          layWord env { text := shown, attach := attach } env.sfc w (s.writer w).lag)
      (fun s l => (s.reportSubstituted w l text).stageWord w l shown attach)

/-- R21, R23, R24, R32: a BREAK is taken. -/
def State.takeBreak (s : State) (w : WriterId) (payload : List Byte) : State :=
  if payload ≠ [] then s.refuseWriter w .badLength breakKind
  else
    s.judgeMessage w breakKind none (fun s _ => s) (fun s l => s.onLane l fun env => closeOpen env .brk)
      (fun s _ => let x := s.writer w; s.setWriter w { x with marks := { x.marks with brk := true } })

/-- R21, R23, R24, R32, R57: a SPEAKER is taken. -/
def State.takeSpeaker (s : State) (w : WriterId) (payload : List Byte) : State :=
  match payload with
  | [index] =>
    s.judgeMessage w speakerKind none (fun s _ => s) (fun s l => s.onLane l fun env => speakerChange env w index)
      (fun s _ => let x := s.writer w; s.setWriter w { x with marks := { x.marks with speaker := some index } })
  | _ => s.refuseWriter w .badLength speakerKind

/-- R21, R23, R24, R33, R65: a DELETE is taken; a count above 16 is clamped to 16. Taken after a TAKE whose deck still plays,
it is suppressed without a report, as R24 and R162 say, though R69 says that it finds nothing: the model's choice (log entry
27). -/
def State.takeDelete (s : State) (w : WriterId) (payload : List Byte) : State :=
  match payload with
  | [count] =>
    let n := min count.toNat 16
    s.judgeMessage w deleteKind (if count = 0 then some .badField else none) (fun s _ => s)
      (fun s l => s.onLane l fun env => laneDelete env w n)
      (fun s _ => s.setWriter w ((s.writer w).unstage n))
  | _ => s.refuseWriter w .badLength deleteKind

/-- R21, R26, R40: a TAKE of a writer is taken. -/
def State.takeTake (s : State) (w : WriterId) (payload : List Byte) : State :=
  if payload ≠ [] then s.refuseWriter w .badLength takeKind
  else match (s.writer w).role with
    | .standby l => s.relay l w
    | _ => s.refuseWriter w .notStandby takeKind

/-- R21, R27: a QUERY is taken. -/
def State.takeQuery (s : State) (w : WriterId) (payload : List Byte) : State :=
  if payload ≠ [] then s.refuseWriter w .badLength queryKind else s.announceRole w

/-- R21: writer intake takes a message of any kind. -/
def State.takeMessage (s : State) (w : WriterId) (kind : Byte) (payload : List Byte) : State :=
  if kind = wordKind then s.takeWord w payload
  else if kind = breakKind then s.takeBreak w payload
  else if kind = speakerKind then s.takeSpeaker w payload
  else if kind = deleteKind then s.takeDelete w payload
  else if kind = takeKind then s.takeTake w payload
  else if kind = queryKind then s.takeQuery w payload
  else s.refuseWriter w .badKind kind

/-! ## The commands -/

/-- WORD (R21 to R25, R31, R51). -/
def execWord (w : WriterId) (payload : List Byte) (s : State) : Host.Outcome State Fault Refusal :=
  .next ((s.goodFrame (.writer w)).takeWord w payload)

/-- BREAK (R21, R23, R24, R32, R57a). -/
def execBreak (w : WriterId) (payload : List Byte) (s : State) : Host.Outcome State Fault Refusal :=
  .next ((s.goodFrame (.writer w)).takeBreak w payload)

/-- SPEAKER (R21, R23, R24, R32, R57). -/
def execSpeaker (w : WriterId) (payload : List Byte) (s : State) : Host.Outcome State Fault Refusal :=
  .next ((s.goodFrame (.writer w)).takeSpeaker w payload)

/-- DELETE (R21, R23, R24, R33, R65 to R67). -/
def execDelete (w : WriterId) (payload : List Byte) (s : State) : Host.Outcome State Fault Refusal :=
  .next ((s.goodFrame (.writer w)).takeDelete w payload)

/-- WRITER_TAKE (R26, R40 to R48). -/
def execWriterTake (w : WriterId) (payload : List Byte) (s : State) : Host.Outcome State Fault Refusal :=
  .next ((s.goodFrame (.writer w)).takeTake w payload)

/-- QUERY (R27, R28). -/
def execQuery (w : WriterId) (payload : List Byte) (s : State) : Host.Outcome State Fault Refusal :=
  .next ((s.goodFrame (.writer w)).takeQuery w payload)

/-- WRITER_FRAME_REFUSED (R21, R29): intake judges the frame by the kind it carries, and an unknown kind is refused. -/
def execWriterFrameRefused (w : WriterId) (kind : Byte) (payload : List Byte) (s : State) :
    Host.Outcome State Fault Refusal :=
  .next ((s.goodFrame (.writer w)).takeMessage w kind payload)

end Sys2Proof.Machine
end

