-- ==== Sys2Proof/Machine/Automation.lean ====
section
/-! DEFINITION. Link A: the arrival, the checks and the reply of an automation request (R134, R180, R183 to R185). -/

namespace Sys2Proof.Machine

/-- The one reply of an addressed request (R184). -/
inductive Reply where
  | ack (value : Option Nat)
  | refused (reason : Reason)
  | data (kind : Byte) (payload : List Byte)
deriving DecidableEq, Repr

/-- A reply as a frame: an ACK carries the kind answered, and its value, if any, in 6 bytes (R185). -/
def Reply.frame (kind : Byte) : Reply → TxFrame
  | .ack none => { kind := ackKind, payload := [kind] }
  | .ack (some v) => { kind := ackKind, payload := kind :: leBytes 6 v }
  | .refused reason => refusedFrame reason kind
  | .data k p => { kind := k, payload := p }

/-- R134: the supervision timer is restarted by a frame on link A, when the interval is not 0. -/
def State.restartSupervision (s : State) : State :=
  if s.supervisionInterval = 0 then s
  else { s with supervisionExpiry := some (s.time.sfc + s.supervisionInterval * s.time.rate.hz) }

/-- R176, R134: a good frame on link A is counted and restarts supervision. -/
def State.automationGood (s : State) : State := (s.countGood .automation).restartSupervision

/-- The reply to a request of this kind is queued on link A (R180). -/
def State.answer (s : State) (kind : Byte) (r : Reply) : State := s.send .automation (r.frame kind)

/-- R183: the payload lengths the table allows for each request. -/
def requestLengthOk (kind : Byte) (n : Nat) : Bool :=
  match kind.toNat with
  | 0x20 => n == 4
  | 0x21 => n == 3
  | 0x22 => decide (2 ≤ n ∧ n ≤ 240)
  | 0x23 => n == 1
  | 0x24 => n == 1
  | 0x25 => n == 1
  | 0x26 => n == 3
  | 0x27 => n == 1
  | 0x28 => n == 1
  | 0x29 => n == 1
  | 0x2A => decide (2 ≤ n ∧ n ≤ 98)
  | 0x2B => n == 3
  | 0x2C => n == 3
  | 0x2D => n == 4
  | 0x2E => n == 1
  | 0x2F => n == 2
  | 0x30 => n == 0
  | 0x31 => n == 1
  | 0x32 => n == 0
  | 0x33 => n == 0
  | 0x34 => n == 3
  | 0x35 => n == 0
  | 0x36 => n == 0
  | _ => false

/-- R180, R184: an addressed frame on link A, counted already: held back, or taken and answered. -/
def State.serve (s : State) (kind : Byte) (lengthOk : Bool) (payload : List Byte)
    (handle : List Byte → State → State × Reply) : State :=
  if s.repliesFull .automation then s
  else if lengthOk then
    let (s', r) := handle payload s
    s'.answer kind r
  else s.answer kind (.refused .badLength)

/-- R184: a request of a kind of the table arrives addressed to the part. -/
def State.request (s : State) (kind : Byte) (payload : List Byte) (handle : List Byte → State → State × Reply) : State :=
  s.automationGood.serve kind (requestLengthOk kind payload.length) payload handle

/-- The request row's whole act: the frame's closing flag, then the request (R173, R184). -/
def requestRow (kind : Byte) (payload : List Byte) (handle : List Byte → State → State × Reply) (s : State) : State :=
  (s.frameClosed .automation).request kind payload handle

end Sys2Proof.Machine
end

