-- ==== Sys2Proof/Machine/Cues.lean ====
section
/-! DEFINITION. The CUE frame, addressed or broadcast, CANCEL-CUE and RELEASE (R13, R118, R119, R122, R135). -/

namespace Sys2Proof.Machine

/-- The kind of the CUE frame (R182). -/
def cueFrameKind : Byte := 0x40

/-- R13: what a FOD target below P converts to. -/
inductive CueTime where
  | due
  | late (by_ : Nat)
  | ahead (sfc : Nat)
deriving DecidableEq, Repr

/-- R13: a FOD target below P converted against SFC and FOD. -/
def TimeBase.convert (t : TimeBase) (target : Nat) : CueTime :=
  let day := t.rate.day
  let diff := (target + day - t.fod) % day
  if diff = 0 then .due else if diff ≤ day / 2 then .ahead (t.sfc + diff) else .late (day - diff)

/-- R118: what a CUE frame says, its fields checked: the cue, and its FOD target if it has one. -/
def readCue (day : Nat) (p : List Byte) : Option (Cue × Option Nat) :=
  match cueKindOf (byteAt p 0) with
  | none => none
  | some kind =>
    let cue : Cue := { kind := kind, mask := p.getD 1 0, tag := byteAt p 2, segment := byteAt p 3 }
    let target := leNat (p.drop 5)
    if kind = .take ∧ 63 < byteAt p 3 then none
    else if byteAt p 4 = 0 then some (cue, none)
    else if byteAt p 4 = 1 ∧ target < day then some (cue, some target)
    else none

/-- R118: a cue is refused at its arrival: a REFUSE report with its tag, when the payload holds one. -/
def State.refuseCueArrival (s : State) (reason : Reason) (p : List Byte) : State :=
  s.report (.refuse reason) none none (if 3 ≤ p.length then some (byteAt p 2) else none)

/-- R118: a cue whose fields are good is carried out, or scheduled, or refused with CUE_FULL. -/
def State.acceptCue (s : State) (p : List Byte) (c : Cue) (target : Option Nat) : State × Reply :=
  match target with
  | none => (s.executeCue c, .ack none)
  | some t =>
    match s.time.convert t with
    | .due => (s.executeCue c, .ack none)
    | .late n => ((s.report .lateCue none none (some n)).executeCue c, .ack none)
    | .ahead sfc =>
      if Config.scheduleCapacity ≤ s.schedule.length then (s.refuseCueArrival .cueFull p, .refused .cueFull)
      else ({ s with schedule := insertCue s.schedule { cue := c, target := sfc } }, .ack (some sfc))

/-- R118: a CUE frame is taken: the part then, and the reply an addressed one gets. -/
def takeCueFrame (p : List Byte) (s : State) : State × Reply :=
  if p.length ≠ 8 then (s.refuseCueArrival .badLength p, .refused .badLength)
  else match readCue s.time.rate.day p with
    | none => (s.refuseCueArrival .badField p, .refused .badField)
    | some (c, target) => s.acceptCue p c target

/-- R176, R180, R184: a CUE frame arrives, addressed or broadcast; a broadcast cue is never held back and gets no reply.
Its length is checked by R118, so that a refusal queues its report. -/
def State.cueFrame (s : State) (broadcast : Bool) (p : List Byte) : State :=
  if broadcast then (takeCueFrame p s.automationGood).1
  else s.automationGood.serve cueFrameKind true p takeCueFrame

/-- A cue row's whole act (log entry 24): a frame's closing flag, then the cue of this kind with the rest of its payload. -/
def cueRow (kind : CueKind) (broadcast : Bool) (rest : List Byte) (s : State) : State :=
  (s.frameClosed .automation).cueFrame broadcast (BitVec.ofNat 8 kind.code :: rest)

/-- R122. -/
def cancelCueRequest (p : List Byte) (s : State) : State × Reply :=
  let kept := s.schedule.filter fun e => decide (e.cue.tag ≠ byteAt p 0)
  ({ s with schedule := kept }, .ack (some (s.schedule.length - kept.length)))

/-- R135. -/
def releaseRequest (_p : List Byte) (s : State) : State × Reply := (s.withdraw false, .ack none)

/-! ## The commands -/

/-- FREEZE (R118 to R121, R123). -/
def execFreeze (broadcast : Bool) (rest : List Byte) (s : State) : Host.Outcome State Fault Refusal :=
  .next (cueRow .freeze broadcast rest s)

/-- THAW (R118 to R121, R123, R126). -/
def execThaw (broadcast : Bool) (rest : List Byte) (s : State) : Host.Outcome State Fault Refusal :=
  .next (cueRow .thaw broadcast rest s)

/-- HOLD (R118 to R121, R124). -/
def execHold (broadcast : Bool) (rest : List Byte) (s : State) : Host.Outcome State Fault Refusal :=
  .next (cueRow .hold broadcast rest s)

/-- RESUME (R118 to R121, R124, R126). -/
def execResume (broadcast : Bool) (rest : List Byte) (s : State) : Host.Outcome State Fault Refusal :=
  .next (cueRow .resume broadcast rest s)

/-- STEP (R118 to R121, R125). -/
def execStep (broadcast : Bool) (rest : List Byte) (s : State) : Host.Outcome State Fault Refusal :=
  .next (cueRow .step broadcast rest s)

/-- CLEAR (R118 to R121, R129). -/
def execClear (broadcast : Bool) (rest : List Byte) (s : State) : Host.Outcome State Fault Refusal :=
  .next (cueRow .clear broadcast rest s)

/-- JOIN (R118 to R121, R130). -/
def execJoin (broadcast : Bool) (rest : List Byte) (s : State) : Host.Outcome State Fault Refusal :=
  .next (cueRow .join broadcast rest s)

/-- SPLIT (R118 to R121, R131). -/
def execSplit (broadcast : Bool) (rest : List Byte) (s : State) : Host.Outcome State Fault Refusal :=
  .next (cueRow .split broadcast rest s)

/-- TAKE_CUE (R118 to R121, R132, R161 to R163). -/
def execTakeCue (broadcast : Bool) (rest : List Byte) (s : State) : Host.Outcome State Fault Refusal :=
  .next (cueRow .take broadcast rest s)

/-- ADVANCE (R118 to R121, R132, R164). -/
def execAdvance (broadcast : Bool) (rest : List Byte) (s : State) : Host.Outcome State Fault Refusal :=
  .next (cueRow .advance broadcast rest s)

/-- END (R118 to R121, R132, R168). -/
def execEnd (broadcast : Bool) (rest : List Byte) (s : State) : Host.Outcome State Fault Refusal :=
  .next (cueRow .finish broadcast rest s)

/-- CANCEL_CUE (R122). -/
def execCancelCue (payload : List Byte) (s : State) : Host.Outcome State Fault Refusal :=
  .next (requestRow 0x31 payload cancelCueRequest s)

/-- RELEASE (R135, R136). -/
def execRelease (payload : List Byte) (s : State) : Host.Outcome State Fault Refusal :=
  .next (requestRow 0x32 payload releaseRequest s)

end Sys2Proof.Machine
end

