-- ==== Sys2Proof/Machine/Inserter.lean ====
section
/-! DEFINITION. The inserter links: the alignment check, the release and blank tests and the replies (R99 to R113, R177,
R180). -/

namespace Sys2Proof.Machine

/-- REQUEST (R182). -/
def inserterRequestKind : Byte := 0x60

/-- R111: the expected timecode (FOD − D) mod P. -/
def expectedTimecode (t : TimeBase) (delay : Nat) : Nat := (t.fod + t.rate.day - delay % t.rate.day) % t.rate.day

/-- R111: the smaller of the two distances of a value from the expected one, modulo P. -/
def timecodeDistance (day value expected : Nat) : Nat :=
  min ((value + day - expected) % day) ((expected + day - value) % day)

/-- R112: the display set after a miss, whether ALIGN_FAULT rises. -/
def DisplaySet.alignMiss (d : DisplaySet) : DisplaySet × Bool :=
  let run := min 3 (d.missRun + 1)
  let rises := decide (run = 3) && !d.alignFault
  ({ d with matchRun := 0, missRun := run, alignFault := d.alignFault || rises }, rises)

/-- R112: the display set after a match, whether ALIGN_FAULT falls. -/
def DisplaySet.alignMatch (d : DisplaySet) : DisplaySet × Bool :=
  if d.alignFault then
    if d.matchRun + 1 < 3 then ({ d with missRun := 0, matchRun := d.matchRun + 1 }, false)
    else ({ d with missRun := 0, matchRun := 0, alignFault := false }, true)
  else ({ d with missRun := 0 }, false)

/-- R111, R112: a request's word (its value, none when invalid) is evaluated on a lane. -/
def alignCheck (time : TimeBase) (value : Option Nat) (env : LaneEnv) (r : LaneRun) : LaneRun :=
  if r.lane.params.align then
    let expected := expectedTimecode time r.lane.params.delay
    let near := match value with
      | none => false
      | some v => decide (timecodeDistance time.rate.day v expected ≤ 2)
    if near then
      let (d, falls) := r.lane.display.alignMatch
      let r := r.edit fun ln => { ln with display := d }
      if falls then r.emit env .alignRestored none none else r
    else
      let (d, rises) := r.lane.display.alignMiss
      let r := r.edit fun ln => { ln with display := d }
      if rises then
        r.emit env .alignFault none (value.map fun v => (v + time.rate.day - expected) % time.rate.day)
      else r
  else r

/-- R104, steps 2 and 3: the release test with the composition and feeding that follow, else the blank test. -/
def serveImage (env : LaneEnv) (r : LaneRun) : LaneRun :=
  if releaseDue env r.lane then composeAndFeed env (releaseNext env r)
  else if blankDue env r.lane then blankAir r
  else r

/-- R105: the status flags of a lane's own replies. -/
def laneFlags (ln : Lane) (following alignFault : Bool) : Nat :=
  statusFlags (decide (ln.state = .running)) ln.frozen ln.held following alignFault (decide (ln.source = .script))

/-- R103, R105: a DISPLAY or UNCHANGED reply of a lane's own image is built. -/
def State.replyOwn (s : State) (l : LaneId) (everyFrame : Bool) : State :=
  let ln := s.lane l
  let d := ln.display
  let flags := laneFlags ln false d.alignFault
  if d.changed ∨ everyFrame then
    (s.setLane l { ln with display := { d with changed := false } }).send (.inserter l)
      { kind := displayKind, payload := displayPayload (laneNumber l) flags (d.air.serial.getD d.serial) d.air }
  else
    s.send (.inserter l)
      { kind := unchangedKind, payload := unchangedPayload (laneNumber l) flags (d.air.serial.getD d.serial) }

/-- R107: the four flags taken from lane 0. -/
def followedFlags (ln : Lane) : FollowedStatus :=
  { running := decide (ln.state = .running), frozen := ln.frozen, held := ln.held
    script := decide (ln.source = .script) }

/-- R107: lane 1's reply while FOLLOWING, from lane 0's air buffer. -/
def State.replyFollowing (s : State) : State :=
  let l0 := s.lane .lane0
  let l1 := s.lane .lane1
  let d0 := l0.display
  let serial := d0.air.serial.getD d0.serial
  let flags := laneFlags l0 true l1.display.alignFault
  if l1.display.changed ∨ l1.params.reply = .everyFrame ∨ s.followedSerial ≠ some d0.serial
      ∨ s.followedStatus ≠ some (followedFlags l0) then
    ({ s.setLane .lane1 { l1 with display := { l1.display with changed := false } } with
        followedSerial := some d0.serial, followedStatus := some (followedFlags l0) }).send (.inserter .lane1)
      { kind := displayKind, payload := displayPayload 1 flags serial d0.air }
  else s.send (.inserter .lane1) { kind := unchangedKind, payload := unchangedPayload 1 flags serial }

/-- R104, R106, R107: an inserter request is taken whole. -/
def State.takeRequest (s : State) (l : LaneId) (word : TimecodeWord) : State :=
  let s := s.onLane l (alignCheck s.time (timecodeFrames word s.time.rate))
  if s.follows l then s.replyFollowing
  else if s.running l then
    let s := s.onLane l serveImage
    s.replyOwn l (decide ((s.lane l).params.reply = .everyFrame))
  else s.replyOwn l false

/-- R177, R180: a good frame on an inserter link: counted, held back, or taken and answered. -/
def State.inserterFrame (s : State) (l : LaneId) (kind : Byte) (payload : List Byte) : State :=
  let s := s.countGood (.inserter l)
  if s.repliesFull (.inserter l) then s
  else if kind ≠ inserterRequestKind then s.send (.inserter l) (refusedFrame .badKind kind)
  else if payload.length ≠ 4 then s.send (.inserter l) (refusedFrame .badLength kind)
  else s.takeRequest l (timecodeOf payload)

/-! ## The commands -/

/-- INSERTER_REQUEST (R99 to R107, R111, R112, R180). -/
def execInserterRequest (l : LaneId) (payload : List Byte) (s : State) : Host.Outcome State Fault Refusal :=
  .next ((s.frameClosed (.inserter l)).inserterFrame l inserterRequestKind payload)

/-- INSERTER_FRAME_REFUSED (R177, R180): the display set judges the frame by the kind and length it has. -/
def execInserterFrameRefused (l : LaneId) (kind : Byte) (payload : List Byte) (s : State) :
    Host.Outcome State Fault Refusal :=
  .next ((s.frameClosed (.inserter l)).inserterFrame l kind payload)

end Sys2Proof.Machine
end

