-- ==== Sys2Proof/Machine/TimeBase.lean ====
section
/-! DEFINITION. The time base (R1 to R12) and the commands that reach it or come from its frame events: power-on, pulses,
expiries, and the acts of the blocks that count frames (R3, R58, R62, R119, R134), each a command of its own (log entry 10).
The order of the reports of one event is log entry 12. -/

namespace Sys2Proof.Machine

/-! ## Frame events -/

/-- R1: SFC after one more frame event; the value past the 48-bit limit is free (log entry 1). -/
def nextSfc (sfc : Nat) : Nat := if sfc + 1 < Config.sfcSpan then sfc + 1 else Config.sfcPastLimit.toNat

/-- R2: FOD after one more frame event. -/
def nextFod (r : Rate) (fod : Nat) : Nat := (fod + 1) % r.day

/-- R1, R2: the advance of a frame event; FOD is then the predicted FOD of the frame. -/
def TimeBase.advance (t : TimeBase) : TimeBase := { t with sfc := nextSfc t.sfc, fod := nextFod t.rate t.fod }

/-- R10: one more miss in LOCKED: whether the lock is lost, and the time base then. -/
def TimeBase.miss (t : TimeBase) : TimeBase × Bool :=
  if t.misses + 1 < 3 then ({ t with misses := t.misses + 1 }, false)
  else ({ t with lock := .search, misses := 0 }, true)

/-- R12: a report of the time base, stamped with its SFC. -/
def TimeBase.reportOf (t : TimeBase) (kind : ReportKind) (value : Option Nat) : Report :=
  { kind := kind, lane := none, writer := none, value := value, stamp := t.sfc }

/-- R8 to R10: the lock machine evaluates a frame's word (absent or invalid: none) against the predicted FOD. -/
def TimeBase.evaluate (t : TimeBase) (word : Option Nat) : TimeBase × List Report :=
  match t.lock, word with
  | .search, some w => ({ t with lock := .verify, candidate := some w }, [])
  | .search, none => ({ t with candidate := none }, [])
  | .verify, some w =>
    if t.candidate.map (fun c => (c + 1) % t.rate.day) = some w then
      ({ t with fod := w, misses := 0, candidate := none, lock := .locked },
        [t.reportOf .lockGained (some ((w + t.rate.day - t.fod) % t.rate.day))])
    else ({ t with candidate := some w }, [])
  | .verify, none => ({ t with candidate := none, lock := .search }, [])
  | .locked, w =>
    if w = some t.fod then ({ t with misses := 0 }, [])
    else
      let (t', lost) := t.miss
      (t', if lost then [t.reportOf .lockLost (some t.fod)] else [])

/-- R11: the word of a pulse taken as the same frame as an internal frame event. -/
def TimeBase.evaluateSameFrame (t : TimeBase) (word : Option Nat) : TimeBase :=
  match t.lock, word with
  | .search, some w => { t with lock := .verify, candidate := some w }
  | .locked, some w => if w = t.fod then { t with misses := 0 } else t
  | _, _ => t

/-- R1 to R3: a frame event with the frame's word (none: absent or invalid). -/
def TimeBase.frameEvent (t : TimeBase) (word : Option Nat) : TimeBase × List Report := t.advance.evaluate word

/-- R7: the value of a pulse's word at the current F, none when it is absent or invalid. -/
def TimeBase.wordValue (t : TimeBase) (word : Option TimecodeWord) : Option Nat :=
  word.bind fun w => timecodeFrames w t.rate

/-- R4, R6: a pulse arrives. -/
def TimeBase.pulse (t : TimeBase) (word : Option TimecodeWord) : TimeBase × List Report :=
  let w := t.wordValue word
  match t.source with
  | .reference =>
    let (t', rs) := t.frameEvent w
    ({ t' with supervision := true }, rs)
  | .internal =>
    if t.window then
      ({ t.evaluateSameFrame w with source := .reference, generator := false, supervision := true, window := false },
        [t.reportOf .pulseRestored none])
    else
      let (t', rs) := t.frameEvent w
      ({ t' with source := .reference, generator := false, supervision := true },
        t'.reportOf .pulseRestored none :: rs)

/-- R4: pulse supervision expires. -/
def TimeBase.supervisionExpiry (t : TimeBase) : TimeBase × List Report :=
  let (t', rs) := t.frameEvent none
  ({ t' with source := .internal, supervision := false, generator := true, window := true },
    rs ++ [t'.reportOf .pulseLost none])

/-- R5: the internal generator expires. -/
def TimeBase.generatorExpiry (t : TimeBase) : TimeBase × List Report :=
  let (t', rs) := t.frameEvent none
  ({ t' with generator := true, window := true }, rs)

/-- R14: a new frame rate is taken. F and P are the new ones from the request on for every later command, the conversion of a
cue target and the reading of a timecode word before the next frame event among them: the model's choice (log entry 26). -/
def TimeBase.withRate (t : TimeBase) (r : Rate) : TimeBase :=
  { t with rate := r, fod := 0, lock := .search, candidate := none, misses := 0 }

/-- The time base takes a new state, and its reports join the queue. -/
def State.withTime (s : State) (x : TimeBase × List Report) : State := ({ s with time := x.1 }).queueReports x.2

/-! ## The commands -/

/-- POWER_ON (R15, R192): every block takes its power-on values. The queue of waiting commands is
the model's and stays (log entry 11). -/
def execPowerOn (straps : BitVec 4) (s : State) : Host.Outcome State Fault Refusal :=
  .next { State.powerOn straps with pending := s.pending }

/-- PULSE_ARRIVAL (R4, R6, R11). -/
def execPulseArrival (timecode : Option TimecodeWord) (s : State) : Host.Outcome State Fault Refusal :=
  .next (s.withTime (s.time.pulse timecode))

/-- PULSE_SUPERVISION_EXPIRY (R4). A stopped timer does not expire (log entry 3). -/
def execPulseSupervisionExpiry (s : State) : Host.Outcome State Fault Refusal :=
  .next (if s.time.source = .reference ∧ s.time.supervision then s.withTime s.time.supervisionExpiry else s)

/-- INTERNAL_GENERATOR_EXPIRY (R5). A stopped timer does not expire (log entry 3). -/
def execInternalGeneratorExpiry (s : State) : Host.Outcome State Fault Refusal :=
  .next (if s.time.source = .internal ∧ s.time.generator then s.withTime s.time.generatorExpiry else s)

/-- SAME_FRAME_WINDOW_CLOSE (R6). -/
def execSameFrameWindowClose (s : State) : Host.Outcome State Fault Refusal :=
  .next { s with time := { s.time with window := false } }

/-- FLUSH_TIMER_EXPIRY (R58): at a frame event at which SFC has reached the lane's expiry SFC. -/
def execFlushTimerExpiry (l : LaneId) (s : State) : Host.Outcome State Fault Refusal :=
  .next (s.onLane l flushExpiry)

/-- CORRECTION_WINDOW_EXPIRY (R62): the builder of a RUNNING lane times the units whose window has ended. -/
def execCorrectionWindowExpiry (l : LaneId) (s : State) : Host.Outcome State Fault Refusal :=
  .next (if s.running l then s.onLane l timeDue else s)

/-- CUE_SCHEDULE_DUE (R119): the due entries are removed and carried out in schedule order. -/
def execCueScheduleDue (s : State) : Host.Outcome State Fault Refusal :=
  .next ((dueCues s.time.sfc s.schedule).1.foldl (fun s e => s.executeCue e.cue)
    { s with schedule := (dueCues s.time.sfc s.schedule).2 })

/-- AUTOMATION_SUPERVISION_EXPIRY (R134): at a frame event at which SFC has reached the timer's expiry SFC. -/
def execAutomationSupervisionExpiry (s : State) : Host.Outcome State Fault Refusal :=
  .next (match s.supervisionExpiry with
    | none => s
    | some x => if x ≤ s.time.sfc then s.withdraw true else s)

end Sys2Proof.Machine
end

