-- ==== Sys2Proof/Machine/Requests.lean ====
section
/-! DEFINITION. The requests that configure the part, assign roles, and start and stop lanes (R14, R17, R20, R40, R55, R56,
R88 to R90, R116, R117, R133). -/

namespace Sys2Proof.Machine

/-! ## Lane parameters -/

/-- R89: the range of rows in a mode. -/
def clampRows (m : Mode) (v : Nat) : Nat :=
  match m with
  | .block => clamp 1 3 v
  | .roll => clamp 2 4 v

/-- R90: a write of mode clamps the rows; the applied value gives both (R183). -/
def writeMode (p : Params) (m : Mode) : Params × Nat :=
  ({ p with mode := m, rows := clampRows m p.rows }, m.code + 256 * clampRows m p.rows)

/-- R88, R89: one parameter written, by its number in the table: the parameters then, and the applied value; none for a
parameter that is not in the table or a value that is not one of its names. -/
def writeParam (p : Params) (code v : Nat) : Option (Params × Nat) :=
  match code with
  | 0 => if v = 0 then some (writeMode p .block) else if v = 1 then some (writeMode p .roll) else none
  | 1 => let x := clamp 24 42 v; some ({ p with width := x }, x)
  | 2 => let x := clampRows p.mode v; some ({ p with rows := x }, x)
  | 3 => let x := clamp 8 30 v; some ({ p with readingRate := x }, x)
  | 4 => let x := clamp (max 12 p.hFloor) (min 125 p.hMax) v; some ({ p with hMin := x }, x)
  | 5 => let x := clamp p.hMin 375 v; some ({ p with hMax := x }, x)
  | 6 => let x := clamp 6 p.hMin v; some ({ p with hFloor := x }, x)
  | 7 => let x := clamp 25 750 v; some ({ p with hClear := x }, x)
  | 8 => let x := clamp 0 25 v; some ({ p with lead := x }, x)
  | 9 => let x := clamp 0 375 v; some ({ p with delay := x }, x)
  | 10 => let x := clamp 0 50 v; some ({ p with correction := x }, x)
  | 11 => let x := clamp 13 250 v; some ({ p with flush := x }, x)
  | 12 => let x := clamp 0 (min 250 p.lam2) v; some ({ p with lam1 := x }, x)
  | 13 => let x := clamp p.lam1 (min 500 p.lamMax) v; some ({ p with lam2 := x }, x)
  | 14 => let x := clamp p.lam2 750 v; some ({ p with lamMax := x }, x)
  | 15 => let x := clamp 25 1500 v; some ({ p with stale := x }, x)
  | 16 => if v ≤ 255 then some ({ p with group := v }, v) else none
  | 17 =>
    if v = 0 then some ({ p with reply := .changeOnly }, v) else if v = 1 then some ({ p with reply := .everyFrame }, v)
    else none
  | 18 =>
    if v = 0 then some ({ p with pacing := .stepped }, v) else if v = 1 then some ({ p with pacing := .auto }, v)
    else none
  | 19 => if v = 0 then some ({ p with align := false }, v) else if v = 1 then some ({ p with align := true }, v) else none
  | _ => none

/-- R90: a write is a change of layout. -/
def layoutChanged (before after : Params) : Bool :=
  decide (before.mode ≠ after.mode) || decide (before.width ≠ after.width) || decide (before.rows ≠ after.rows)

/-- R113: the alignment state after a write of the alignment check parameter with a different value. -/
def DisplaySet.alignReset (d : DisplaySet) : DisplaySet := { d with missRun := 0, matchRun := 0, alignFault := false }

/-- R88, R90, R113: the parameters take effect on a lane. -/
def applyParams (after : Params) (env : LaneEnv) (r : LaneRun) : LaneRun :=
  let before := r.lane.params
  let r := r.edit fun ln =>
    { ln with
      params := after
      display := if before.align = after.align then ln.display else ln.display.alignReset }
  if layoutChanged before after then invalidateDeck env r else r

/-- R88. -/
def configureLaneRequest (p : List Byte) (s : State) : State × Reply :=
  match laneOf (byteAt p 0) with
  | none => (s, .refused .badField)
  | some l =>
    match writeParam (s.lane l).params (byteAt p 1) (wordAt p 2) with
    | none => (s, .refused .badField)
    | some (after, applied) =>
      if byteAt p 1 ≤ 2 ∧ s.running l then (s, .refused .laneRunning)
      else (s.onLane l (applyParams after), .ack (some applied))

/-! ## Writers, styles, rate, supervision -/

/-- R20. -/
def configureWriterRequest (p : List Byte) (s : State) : State × Reply :=
  match writerOf (byteAt p 0) with
  | none => (s, .refused .badField)
  | some w =>
    let lag := clamp 0 375 (wordAt p 1)
    (s.setWriter w { s.writer w with lag := lag }, .ack (some lag))

/-- R55. -/
def setStyleRequest (p : List Byte) (s : State) : State × Reply :=
  let label := p.drop 2
  match styleOf (p.getD 1 0) with
  | none => (s, .refused .badField)
  | some style =>
    if 15 < byteAt p 0 ∨ 8 < label.length ∨ label.any (fun b => !printable b) then (s, .refused .badField)
    else ({ s with styles := s.styles.setIfInBounds (byteAt p 0) { style := style, label := label } }, .ack none)

/-- R56. -/
def setStyleLimitRequest (p : List Byte) (s : State) : State × Reply :=
  let limit := clamp 1 16 (byteAt p 0)
  ({ s with styleLimit := limit }, .ack (some limit))

/-- R14. -/
def setFrameRateRequest (p : List Byte) (s : State) : State × Reply :=
  match rateOf (byteAt p 0) with
  | none => (s, .refused .badField)
  | some r =>
    if s.running .lane0 ∨ s.running .lane1 then (s, .refused .laneRunning)
    else ({ s with time := s.time.withRate r }, .ack (some r.hz))

/-- R133: the interval is set; at 0 the timer stops, otherwise it is started from the request. -/
def setSupervisionRequest (p : List Byte) (s : State) : State × Reply :=
  let interval := clamp 0 60 (byteAt p 0)
  let s := { s with supervisionInterval := interval }
  (if interval = 0 then { s with supervisionExpiry := none } else s.restartSupervision, .ack (some interval))

/-- R17: the role an ASSIGN names; for IDLE the lane field is not examined. -/
def roleOf (role lane : Nat) : Option Role :=
  match role with
  | 0 => some .idle
  | 1 => (laneOf lane).map .onAir
  | 2 => (laneOf lane).map .standby
  | _ => none

/-- R17 to R19. -/
def assignRequest (p : List Byte) (s : State) : State × Reply :=
  match writerOf (byteAt p 0), roleOf (byteAt p 1) (byteAt p 2) with
  | some w, some x => (announceChanges s.writers (s.assignRole w x), .ack none)
  | _, _ => (s, .refused .badField)

/-- R40. -/
def handoverRequest (p : List Byte) (s : State) : State × Reply :=
  match laneOf (byteAt p 0) with
  | none => (s, .refused .badField)
  | some l =>
    match s.holder (.standby l) with
    | none => (s, .refused .noStandby)
    | some w => (s.relay l w, .ack none)

/-! ## START and STOP -/

/-- R110: lane 1's followed serial and status lose their values at its START and STOP. -/
def State.forgetFollowed (s : State) (l : LaneId) : State :=
  match l with
  | .lane0 => s
  | .lane1 => { s with followedSerial := none, followedStatus := none }

/-- R116. -/
def startRequest (p : List Byte) (s : State) : State × Reply :=
  match laneOf (byteAt p 0) with
  | none => (s, .refused .badField)
  | some l =>
    if s.running l then (s, .refused .laneRunning) else ((s.onLane l laneStart).forgetFollowed l, .ack none)

/-- R117. -/
def stopRequest (p : List Byte) (s : State) : State × Reply :=
  match laneOf (byteAt p 0) with
  | none => (s, .refused .badField)
  | some l =>
    if s.running l then ((s.onLane l laneStop).forgetFollowed l, .ack none) else (s, .refused .laneStopped)

/-! ## The commands -/

/-- CONFIGURE_LANE (R88 to R91). -/
def execConfigureLane (payload : List Byte) (s : State) : Host.Outcome State Fault Refusal :=
  .next (requestRow 0x20 payload configureLaneRequest s)

/-- CONFIGURE_WRITER (R20). -/
def execConfigureWriter (payload : List Byte) (s : State) : Host.Outcome State Fault Refusal :=
  .next (requestRow 0x21 payload configureWriterRequest s)

/-- SET_STYLE (R55). -/
def execSetStyle (payload : List Byte) (s : State) : Host.Outcome State Fault Refusal :=
  .next (requestRow 0x22 payload setStyleRequest s)

/-- SET_STYLE_LIMIT (R56). -/
def execSetStyleLimit (payload : List Byte) (s : State) : Host.Outcome State Fault Refusal :=
  .next (requestRow 0x23 payload setStyleLimitRequest s)

/-- SET_FRAME_RATE (R14). -/
def execSetFrameRate (payload : List Byte) (s : State) : Host.Outcome State Fault Refusal :=
  .next (requestRow 0x24 payload setFrameRateRequest s)

/-- SET_SUPERVISION (R133). -/
def execSetSupervision (payload : List Byte) (s : State) : Host.Outcome State Fault Refusal :=
  .next (requestRow 0x25 payload setSupervisionRequest s)

/-- ASSIGN (R17 to R19). -/
def execAssign (payload : List Byte) (s : State) : Host.Outcome State Fault Refusal :=
  .next (requestRow 0x26 payload assignRequest s)

/-- HANDOVER (R40 to R48). -/
def execHandover (payload : List Byte) (s : State) : Host.Outcome State Fault Refusal :=
  .next (requestRow 0x27 payload handoverRequest s)

/-- START (R116). -/
def execStart (payload : List Byte) (s : State) : Host.Outcome State Fault Refusal :=
  .next (requestRow 0x28 payload startRequest s)

/-- STOP (R117). -/
def execStop (payload : List Byte) (s : State) : Host.Outcome State Fault Refusal :=
  .next (requestRow 0x29 payload stopRequest s)

end Sys2Proof.Machine
end

