-- ==== Sys2Proof/Machine/Store.lean ====
section
/-! DEFINITION. The script store: pages, load buffers, segments, the store engine and its completions (R140 to R159). -/

namespace Sys2Proof.Machine

/-! ## Pages, buffers, segments -/

/-- The state of a page. -/
def Store.page (x : Store) (p : Nat) : PageState := (x.pages[p]?).getD .empty

/-- A page takes a state. -/
def Store.setPage (x : Store) (p : Nat) (v : PageState) : Store := { x with pages := x.pages.setIfInBounds p v }

def Store.buffer (x : Store) : BufferId → LoadBuffer
  | .bufA => x.bufferA
  | .bufB => x.bufferB

def Store.setBuffer (x : Store) : BufferId → LoadBuffer → Store
  | .bufA, b => { x with bufferA := b }
  | .bufB, b => { x with bufferB := b }

/-- The segment an id names, when it is defined. -/
def Store.segment (x : Store) (id : Nat) : Option Segment := (x.segments[id]?).getD none

/-- The 96 characters of a page. -/
def Store.pageChars (x : Store) (p : Nat) : List Byte := x.text.readRun (Config.pageLength * p) Config.pageLength

/-- The 96 characters of a buffer. -/
def LoadBuffer.contents (b : LoadBuffer) : List Byte := b.chars.readRun 0 Config.pageLength

/-- The pages of a segment. -/
def Segment.pages (g : Segment) : List Nat := (List.range g.count).map (g.first + ·)

/-- R141: the text of a segment, the texts of its pages joined end to end. -/
def Store.segmentText (x : Store) (g : Segment) : Text := g.pages.flatMap fun p => pageText (x.pageChars p)

/-- R148, R149: a segment is being prepared. -/
def Store.preparing (x : Store) (id : Nat) : Bool :=
  match x.engine with
  | .prepare g _ => decide (g = id)
  | _ => false

/-- The script store of the part, changed. -/
def State.withStore (s : State) (x : Store) : State := { s with store := x }

/-! ## Reports of the store (R147) -/

/-- R147: value = operation × 16,777,216 + outcome × 65,536 + object. -/
def storeValue (operation outcome object : Nat) : Nat := operation * 16777216 + outcome * 65536 + object

/-! ## Requests -/

/-- R142. -/
def loadBufferRequest (p : List Byte) (s : State) : State × Reply :=
  let run := p.drop 2
  match bufferOf (byteAt p 0) with
  | none => (s, .refused .badField)
  | some b =>
    let x := s.store.buffer b
    if Config.pageLength < byteAt p 1 + run.length then (s, .refused .badField)
    else if x.locked then (s, .refused .bufferBusy)
    else (s.withStore (s.store.setBuffer b { x with chars := x.chars.writeRun (byteAt p 1) run }), .ack none)

/-- R144. -/
def commitRequest (p : List Byte) (s : State) : State × Reply :=
  let page := wordAt p 1
  match bufferOf (byteAt p 0) with
  | none => (s, .refused .badField)
  | some b =>
    if 511 < page then (s, .refused .badField)
    else if s.store.engine ≠ .idle then (s, .refused .storeBusy)
    else
      let x := (s.store.setPage page .writing).setBuffer b { s.store.buffer b with locked := true }
      (s.withStore { x with engine := .commit b page }, .ack none)

/-- R146. -/
def compareRequest (p : List Byte) (s : State) : State × Reply :=
  let page := wordAt p 1
  match bufferOf (byteAt p 0) with
  | none => (s, .refused .badField)
  | some b =>
    if 511 < page then (s, .refused .badField)
    else if s.store.page page ≠ .valid then (s, .refused .pageInvalid)
    else if s.store.engine ≠ .idle then (s, .refused .storeBusy)
    else (s.withStore { s.store with engine := .compare b page }, .ack none)

/-- A segment table entry takes a value. -/
def Store.setSegment (x : Store) (id : Nat) (g : Option Segment) : Store :=
  { x with segments := x.segments.setIfInBounds id g }

/-- R148. -/
def defineSegmentRequest (p : List Byte) (s : State) : State × Reply :=
  let id := byteAt p 0
  let first := wordAt p 1
  let count := byteAt p 3
  if 63 < id then (s, .refused .badField)
  else if count = 0 ∨ 32 < count ∨ 512 < first + count then (s, .refused .segmentRange)
  else if s.store.preparing id then (s, .refused .segmentBusy)
  else (s.withStore (s.store.setSegment id (some { first := first, count := count })), .ack none)

/-- R149. -/
def deleteSegmentRequest (p : List Byte) (s : State) : State × Reply :=
  let id := byteAt p 0
  if 63 < id then (s, .refused .badField)
  else if s.store.preparing id then (s, .refused .segmentBusy)
  else (s.withStore (s.store.setSegment id none), .ack none)

/-- A deck is PLAYING. -/
def Deck.isPlaying (d : Deck) : Bool :=
  match d.state with
  | .playing _ => true
  | _ => false

/-- R150: the checks of a PREPARE in their order: the reason of the first that fails. -/
def prepareRefusal (s : State) (id : Nat) (l : LaneId) : Option Reason :=
  match s.store.segment id with
  | none => some .segmentUndefined
  | some g =>
    if g.pages.any fun p => decide (s.store.page p = .writing) then some .pageBusy
    else if g.pages.any fun p => decide (s.store.page p ≠ .valid) then some .pageInvalid
    else if (s.lane l).deck.isPlaying then some .deckBusy
    else if s.store.engine ≠ .idle then some .storeBusy
    else none

/-- R150: the deck of a lane becomes PREPARING and loses its units. -/
def startPreparing (id : Nat) (_env : LaneEnv) (r : LaneRun) : LaneRun := r.editDeck fun d => d.without (.preparing id)

/-- R150. -/
def prepareRequest (p : List Byte) (s : State) : State × Reply :=
  let id := byteAt p 0
  match laneOf (byteAt p 1) with
  | none => (s, .refused .badField)
  | some l =>
    if 63 < id then (s, .refused .badField)
    else match prepareRefusal s id l with
      | some reason => (s, .refused reason)
      | none =>
        ((s.withStore { s.store with engine := .prepare id l }).onLane l (startPreparing id), .ack none)

/-! ## STORE-RESET (R153) -/

/-- R153: the store after its operation in flight is terminated. -/
def Store.terminated (x : Store) : Store :=
  match x.engine with
  | .idle => x
  | .commit b page =>
    { (x.setPage page .invalid).setBuffer b { x.buffer b with locked := false } with engine := .idle }
  | .compare _ _ => { x with engine := .idle }
  | .prepare _ _ => { x with engine := .idle }

/-- R153: the deck being prepared becomes EMPTY, and a pending take on it is dropped. -/
def abandonDeck (env : LaneEnv) (r : LaneRun) : LaneRun := dropTake env (r.editDeck fun d => d.without .empty)

/-- R153: the operation in flight, if any, is terminated, with its reports. -/
def State.resetStore (s : State) : State :=
  let s' := s.withStore s.store.terminated
  match s.store.engine with
  | .idle => s
  | .commit _ page => s'.report .storeAbandoned none none (some (storeValue 1 0 page))
  | .compare _ page => s'.report .storeAbandoned none none (some (storeValue 2 0 page))
  | .prepare id l => (s'.onLane l abandonDeck).report .storeAbandoned (some l) none (some (storeValue 3 0 id))

/-- R153. -/
def storeResetRequest (_p : List Byte) (s : State) : State × Reply := (s.resetStore, .ack none)

/-! ## Completions -/

/-- R145: the buffer copied into its page. -/
def Store.committed (x : Store) (b : BufferId) (page : Nat) : Store :=
  let y := (x.setPage page .valid).setBuffer b { x.buffer b with locked := false }
  { y with text := x.text.writeRun (Config.pageLength * page) (x.buffer b).contents, engine := .idle }

/-- R146: the lowest position at which two runs of characters differ, counted from `i`. -/
def firstDifference : Nat → List Byte → List Byte → Option Nat
  | i, a :: as, b :: bs => if a = b then firstDifference (i + 1) as bs else some i
  | _, _, _ => none

/-- R146: the last compare result of a completed COMPARE. -/
def Store.compareNow (x : Store) (b : BufferId) (page sfc : Nat) : CompareResult :=
  let d := firstDifference 0 (x.buffer b).contents (x.pageChars page)
  { isMatch := d.isNone, buffer := b, page := page, firstDiff := d, completedAt := sfc }

/-- R145: the completion of a COMMIT. -/
def State.completeCommit (s : State) : State :=
  match s.store.engine with
  | .commit b page =>
    (s.withStore (s.store.committed b page)).report .storeDone none none (some (storeValue 1 0 page))
  | _ => s

/-- R146: the completion of a COMPARE. -/
def State.completeCompare (s : State) : State :=
  match s.store.engine with
  | .compare b page =>
    let result := s.store.compareNow b page s.time.sfc
    (s.withStore { s.store with engine := .idle, lastCompare := some result }).report .storeDone none none
      (some (storeValue 2 (if result.isMatch then 1 else 2) page))
  | _ => s

/-- R151, R158: the text of the segment being prepared; a segment being prepared is defined (R148 to R150). -/
def Store.preparedText (x : Store) (id : Nat) : Text :=
  match x.segment id with
  | none => []
  | some g => x.segmentText g

/-- R158: the deck of a lane becomes READY with the layout. -/
def fillDeck (id : Nat) (units : List CaptionUnit) (_env : LaneEnv) (r : LaneRun) : LaneRun :=
  r.editDeck fun d => d.laidOut id units

/-- R159: what follows STORE_DONE at a PREPARE completion: the layout's reports, then a pending take. -/
def afterPrepare (id : Nat) (units : List CaptionUnit) (limited : List Nat) (env : LaneEnv) (r : LaneRun) : LaneRun :=
  carryOutPending env id (layoutReports env units limited r)

/-- R151, R158, R159: the completion of a PREPARE. -/
def State.completePrepare (s : State) : State :=
  match s.store.engine with
  | .prepare id l =>
    let laid := layoutScript (s.env l) (s.lane l).params id (s.store.preparedText id)
    let s := (s.onLane l (fillDeck id laid.1)).withStore { s.store with engine := .idle }
    let s := s.report .storeDone (some l) none (some (storeValue 3 0 id))
    s.onLane l (afterPrepare id laid.1 laid.2)
  | _ => s

/-! ## The commands -/

/-- LOAD_BUFFER (R142). -/
def execLoadBuffer (payload : List Byte) (s : State) : Host.Outcome State Fault Refusal :=
  .next (requestRow 0x2A payload loadBufferRequest s)

/-- COMMIT (R144). -/
def execCommit (payload : List Byte) (s : State) : Host.Outcome State Fault Refusal :=
  .next (requestRow 0x2B payload commitRequest s)

/-- COMMIT_COMPLETION (R145). Without a COMMIT in flight no completion takes place. -/
def execCommitCompletion (s : State) : Host.Outcome State Fault Refusal := .next s.completeCommit

/-- COMPARE (R146). -/
def execCompare (payload : List Byte) (s : State) : Host.Outcome State Fault Refusal :=
  .next (requestRow 0x2C payload compareRequest s)

/-- COMPARE_COMPLETION (R146). Without a COMPARE in flight no completion takes place. -/
def execCompareCompletion (s : State) : Host.Outcome State Fault Refusal := .next s.completeCompare

/-- DEFINE_SEGMENT (R148). -/
def execDefineSegment (payload : List Byte) (s : State) : Host.Outcome State Fault Refusal :=
  .next (requestRow 0x2D payload defineSegmentRequest s)

/-- DELETE_SEGMENT (R149). -/
def execDeleteSegment (payload : List Byte) (s : State) : Host.Outcome State Fault Refusal :=
  .next (requestRow 0x2E payload deleteSegmentRequest s)

/-- PREPARE (R150). -/
def execPrepare (payload : List Byte) (s : State) : Host.Outcome State Fault Refusal :=
  .next (requestRow 0x2F payload prepareRequest s)

/-- PREPARE_COMPLETION (R151, R158, R159). Without a PREPARE in flight no completion takes place. -/
def execPrepareCompletion (s : State) : Host.Outcome State Fault Refusal := .next s.completePrepare

/-- STORE_RESET (R153). -/
def execStoreReset (payload : List Byte) (s : State) : Host.Outcome State Fault Refusal :=
  .next (requestRow 0x30 payload storeResetRequest s)

end Sys2Proof.Machine
end

