-- ==== Sys2Proof/Machine/Reports.lean ====
section
/-! DEFINITION. The report unit's requests: POLL, STATUS, CLEAR-COUNTERS and ENGINE-RESET (R12, R36, R70, R93, R115, R138,
R155, R171, R178, R188 to R191). -/

namespace Sys2Proof.Machine

/-! ## POLL -/

/-- R188: the POLL reply payload. -/
def pollPayload (overflow : Bool) (rs : List Report) : List Byte :=
  leBytes 1 (if overflow then 1 else 0) ++ leBytes 1 rs.length ++ rs.flatMap Report.bytes

/-- R188. -/
def pollRequest (_p : List Byte) (s : State) : State × Reply :=
  ({ s with reports := s.reports.drop Config.pollBatch, reportOverflow := false },
    .data pollReplyKind (pollPayload s.reportOverflow (s.reports.take Config.pollBatch)))

/-! ## STATUS (R189)

An item that is absent is sent at its width with every byte 0xFF. The codes of flags and of items that no table lists are
log entry 7. -/

/-- A number of so many bytes, or 0xFF in each when it is absent (R189). -/
def optBytes (width : Nat) : Option Nat → List Byte
  | none => List.replicate width 0xFF
  | some v => leBytes width v

/-- The time base section (R12, R138). -/
def timeItems (s : State) : List Byte :=
  leBytes 6 s.time.sfc ++ leBytes 4 s.time.fod ++ leBytes 1 s.time.rate.hz ++ leBytes 1 s.time.source.code
    ++ leBytes 1 s.time.lock.code ++ optBytes 4 s.time.candidate ++ leBytes 1 s.time.misses
    ++ leBytes 1 s.schedule.length ++ optBytes 6 (s.schedule.head?.map ScheduledCue.target)
    ++ optBytes 1 (s.schedule.head?.map fun e => e.cue.kind.code) ++ optBytes 1 (s.schedule.head?.map fun e => e.cue.tag)
    ++ leBytes 1 s.supervisionInterval ++ optBytes 6 s.supervisionExpiry

/-- Lane control's items (R138). -/
def controlItems (s : State) (l : LaneId) : List Byte :=
  let ln := s.lane l
  leBytes 1 ln.state.code ++ leBytes 1 ln.source.code ++ leBytes 1 (flagCode ln.frozen) ++ leBytes 1 (flagCode ln.held)
    ++ (match l with | .lane0 => [] | .lane1 => leBytes 1 (flagCode s.following)) ++ leBytes 2 ln.counters.stale

/-- One provisional unit's items (R70). -/
def provisionalItems (q : Provisional) : List Byte :=
  leBytes 1 q.unit.words.length ++ leBytes 1 q.unit.count ++ optBytes 1 (q.unit.closeCause.map CloseCause.code)
    ++ optBytes 6 q.unit.closeFrame ++ leBytes 6 q.windowEnd

/-- The builder's items (R70). -/
def builderItems (ln : Lane) : List Byte :=
  let b := ln.builder
  let u := b.openUnit
  leBytes 1 (presentCode u.isSome) ++ optBytes 1 (u.map fun u => u.words.length) ++ optBytes 1 (u.map fun u => u.lines.length)
    ++ optBytes 1 (u.map CaptionUnit.count) ++ optBytes 1 ((u.bind CaptionUnit.writer).map writerNumber)
    ++ optBytes 6 (u.bind CaptionUnit.firstArrival) ++ optBytes 6 b.flush
    ++ leBytes 1 b.provisional.length ++ b.provisional.flatMap provisionalItems
    ++ leBytes 1 b.recent.length ++ leBytes 1 b.style ++ leBytes 1 (flagCode b.pendingLabel)
    ++ leBytes 2 ln.counters.late

/-- A queued unit's items (R93). -/
def timedItems (t : Option TimedUnit) : List Byte :=
  optBytes 6 (t.map TimedUnit.release) ++ optBytes 1 (t.map fun t => t.level.code) ++ optBytes 2 (t.map TimedUnit.minimum)

/-- The lane's parameters, in the order of their table (R93). -/
def paramItems (p : Params) : List Byte :=
  leBytes 1 p.mode.code ++ leBytes 1 p.width ++ leBytes 1 p.rows ++ leBytes 1 p.readingRate ++ leBytes 1 p.hMin
    ++ leBytes 2 p.hMax ++ leBytes 1 p.hFloor ++ leBytes 2 p.hClear ++ leBytes 1 p.lead ++ leBytes 2 p.delay
    ++ leBytes 1 p.correction ++ leBytes 1 p.flush ++ leBytes 1 p.lam1 ++ leBytes 2 p.lam2 ++ leBytes 2 p.lamMax
    ++ leBytes 2 p.stale ++ leBytes 1 p.group ++ leBytes 1 p.reply.code ++ leBytes 1 p.pacing.code
    ++ leBytes 1 (alignCode p.align)

/-- The timing engine's items (R93). -/
def timingItems (ln : Lane) : List Byte :=
  let e := ln.engine
  leBytes 1 e.queue.length ++ timedItems e.queue.head? ++ timedItems e.queue.getLast?
    ++ optBytes 6 (e.record.map LastTimed.release) ++ optBytes 2 (e.record.map LastTimed.minimum)
    ++ leBytes 1 e.level.code ++ leBytes 2 ln.counters.cut ++ leBytes 2 ln.counters.discarded ++ paramItems ln.params

/-- An image's release frame, CUT mark and number of non-empty rows, absent when the image does not count (R115). -/
def imageItems (present : Bool) (i : Image) : List Byte :=
  if present then optBytes 6 i.release ++ leBytes 1 (flagCode i.cut) ++ leBytes 1 i.filled else List.replicate 8 0xFF

/-- The display set's items (R115). -/
def displayItems (s : State) (l : LaneId) : List Byte :=
  let ln := s.lane l
  let d := ln.display
  leBytes 1 (flagCode d.nextReady) ++ imageItems d.nextReady d.next
    ++ leBytes 1 (if d.air.isBlank then 1 else 0) ++ imageItems (!d.air.isBlank) d.air
    ++ leBytes 6 d.onAir ++ leBytes 2 d.serial ++ leBytes 1 (flagCode d.changed)
    ++ leBytes 1 ln.params.reply.code ++ leBytes 1 (alignCode ln.params.align)
    ++ leBytes 1 d.missRun ++ leBytes 1 d.matchRun ++ leBytes 1 (flagCode d.alignFault) ++ leBytes 2 ln.counters.released
    ++ (match l with | .lane0 => [] | .lane1 => optBytes 2 s.followedSerial)

/-- The deck player's items (R171). -/
def deckItems (d : Deck) : List Byte :=
  leBytes 1 d.state.code ++ optBytes 1 d.state.segment ++ leBytes 1 d.units.length
    ++ optBytes 1 (d.pacing.map Pacing.code) ++ optBytes 1 d.nextIndex ++ optBytes 6 d.onsets.head?
    ++ optBytes 6 (d.pendingTake.map PendingTake.frame) ++ optBytes 1 (d.pendingTake.map PendingTake.tag)

/-- The seven lane counters (R189). -/
def counterItems (c : Counters) : List Byte :=
  leBytes 2 c.released ++ leBytes 2 c.cut ++ leBytes 2 c.stale ++ leBytes 2 c.discarded ++ leBytes 2 c.suppressed
    ++ leBytes 2 c.overlap ++ leBytes 2 c.late

/-- The lane section (R189). -/
def laneItems (s : State) (l : LaneId) : List Byte :=
  controlItems s l ++ builderItems (s.lane l) ++ timingItems (s.lane l) ++ displayItems s l
    ++ deckItems (s.lane l).deck ++ counterItems (s.lane l).counters

/-- One writer's items (R36); the pending SPEAKER mark is sent in 2 bytes (R189). -/
def writerItems (w : Writer) : List Byte :=
  leBytes 1 w.role.code ++ optBytes 1 (w.role.lane.map laneNumber) ++ leBytes 2 w.lag ++ leBytes 1 w.staging.length
    ++ optBytes 6 (w.staging.head?.map Staged.arrival) ++ leBytes 1 (flagCode w.marks.brk)
    ++ optBytes 2 (w.marks.speaker.map BitVec.toNat) ++ leBytes 1 (flagCode w.overflowReported)
    ++ leBytes 2 w.overflows

/-- The engine state and the operation in flight (R155). The byte of the operation is 1 COMMIT, 2 COMPARE, 3 PREPARE, the
numbers that R147 gives for the reports' values: R189 gives no code for it, and this one is the model's choice (log
entry 7). -/
def engineItems : StoreEngine → List Byte
  | .idle => leBytes 1 0 ++ List.replicate 6 0xFF
  | .commit b page => leBytes 1 1 ++ leBytes 1 1 ++ leBytes 1 b.code ++ leBytes 2 page ++ List.replicate 2 0xFF
  | .compare b page => leBytes 1 1 ++ leBytes 1 2 ++ leBytes 1 b.code ++ leBytes 2 page ++ List.replicate 2 0xFF
  | .prepare g l => leBytes 1 1 ++ leBytes 1 3 ++ List.replicate 3 0xFF ++ leBytes 1 g ++ leBytes 1 (laneNumber l)

/-- The last compare result (R146, R155). -/
def compareItems : Option CompareResult → List Byte
  | none => List.replicate 11 0xFF
  | some c =>
    leBytes 1 (if c.isMatch then 0 else 1) ++ leBytes 1 c.buffer.code ++ leBytes 2 c.page ++ optBytes 1 c.firstDiff
      ++ leBytes 6 c.completedAt

/-- The number of pages in a state (R155). -/
def Store.countPages (x : Store) (v : PageState) : Nat := (x.pages.toList.filter fun y => decide (y = v)).length

/-- Page states packed four to a byte, 2 bits each, the first in the lowest bits (R189); at most so many bytes. Where fewer
than four states remain for the last byte, its unused places are 0: the rules give them no value, and 0 is the model's
choice (log entry 7). -/
def packStates : Nat → List Nat → List Byte
  | 0, _ => []
  | _ + 1, [] => []
  | n + 1, vs =>
    BitVec.ofNat 8 (vs.getD 0 0 + 4 * vs.getD 1 0 + 16 * vs.getD 2 0 + 64 * vs.getD 3 0) :: packStates n (vs.drop 4)

/-- The states of the 32 pages from a page on, pages beyond 511 omitted (R155). -/
def Store.statesFrom (x : Store) (first : Nat) : List Nat := ((x.pages.toList.drop first).take 32).map PageState.code

/-- One segment's items (R189). -/
def segmentItems : Option Segment → List Byte
  | none => List.replicate 3 0xFF
  | some g => leBytes 2 g.first ++ leBytes 1 g.count

/-- The store section (R155). -/
def storeItems (x : Store) (argument : Nat) : List Byte :=
  engineItems x.engine ++ leBytes 1 (lockCode x.bufferA.locked) ++ leBytes 1 (lockCode x.bufferB.locked)
    ++ compareItems x.lastCompare
    ++ leBytes 2 (x.countPages .empty) ++ leBytes 2 (x.countPages .writing) ++ leBytes 2 (x.countPages .valid)
    ++ leBytes 2 (x.countPages .invalid)
    ++ packStates 8 (x.statesFrom argument) ++ x.segments.toList.flatMap segmentItems

/-- One link's four counts (R178). -/
def linkItems (k : LinkState) : List Byte :=
  leBytes 2 k.good ++ leBytes 2 k.checks ++ leBytes 2 k.aborts ++ leBytes 2 k.sizes

/-- The seven links, W0 to W3, A, I0 and I1 (R178). -/
def allLinks : List Link :=
  [.writer .w0, .writer .w1, .writer .w2, .writer .w3, .automation, .inserter .lane0, .inserter .lane1]

/-- R189: the STATUS reply payload of a section; none for a section code or a lane that is refused. -/
def statusPayload (s : State) (section_ argument : Nat) : Option (List Byte) :=
  match section_ with
  | 0 => some (leBytes 1 0 ++ timeItems s)
  | 1 => (laneOf argument).map fun l => leBytes 1 1 ++ laneItems s l
  | 2 => some (leBytes 1 2 ++ allWriters.flatMap fun w => writerItems (s.writer w))
  | 3 => some (leBytes 1 3 ++ storeItems s.store argument)
  | 4 => some (leBytes 1 4 ++ leBytes 1 s.partAddress ++ allLinks.flatMap fun k => linkItems (s.link k))
  | _ => none

/-- R189. -/
def statusRequest (p : List Byte) (s : State) : State × Reply :=
  match statusPayload s (byteAt p 0) (wordAt p 1) with
  | none => (s, .refused .badField)
  | some bytes => (s, .data statusReplyKind bytes)

/-! ## CLEAR-COUNTERS (R190) -/

/-- The four counts of a link at 0. -/
def LinkState.zeroed (k : LinkState) : LinkState := { k with good := 0, checks := 0, aborts := 0, sizes := 0 }

/-- The same done for each lane. -/
def PerLane.map {α : Type} (f : α → α) (p : PerLane α) : PerLane α := ⟨f p.lane0, f p.lane1⟩

/-- The same done for each writer. -/
def PerWriter.map {α : Type} (f : α → α) (p : PerWriter α) : PerWriter α := ⟨f p.w0, f p.w1, f p.w2, f p.w3⟩

/-- R190: every counter of the part at 0. -/
def State.zeroCounters (s : State) : State :=
  { s with
    lanes := s.lanes.map fun ln => { ln with counters := Counters.zero }
    writers := s.writers.map fun w => { w with overflows := 0 }
    links :=
      { writers := s.links.writers.map LinkState.zeroed, automation := s.links.automation.zeroed
        inserters := s.links.inserters.map LinkState.zeroed } }

/-- R190. -/
def clearCountersRequest (_p : List Byte) (s : State) : State × Reply := (s.zeroCounters, .ack none)

/-! ## ENGINE-RESET (R191) -/

/-- R37: a writer IDLE, its staging list and its marks empty. -/
def Writer.reset (w : Writer) : Writer := { w.emptied with role := .idle }

/-- R68, R85, R110, R139, R169: a lane at its reset values; parameters and counters are kept. -/
def Lane.reset (ln : Lane) (sfc : Nat) : Lane :=
  { ln with
    state := .stopped, source := .live, frozen := false, held := false
    builder := ln.builder.emptied false
    engine := ln.engine.emptied
    display := DisplaySet.resetAt sfc
    deck := Deck.powerOn }

/-- R37, R139, R156, R191: the blocks but for the store and the report unit. -/
def State.resetBlocks (s : State) : State :=
  { s with
    writers := s.writers.map Writer.reset
    lanes := s.lanes.map fun ln => ln.reset s.time.sfc
    following := false, followedSerial := none, followedStatus := none
    schedule := [] }

/-- R191: the report unit, when every block has acted. -/
def State.resetReports (s : State) : State :=
  ({ s with reports := [], reportOverflow := false }).report .engineReset none none none

/-- R191: the store is reset, then the other blocks, with the ROLE frames of R37, then the report unit. -/
def engineResetRequest (_p : List Byte) (s : State) : State × Reply :=
  ((announceChanges s.writers s.resetStore.resetBlocks).resetReports, .ack none)

/-! ## The commands -/

/-- POLL (R188). -/
def execPoll (payload : List Byte) (s : State) : Host.Outcome State Fault Refusal :=
  .next (requestRow 0x33 payload pollRequest s)

/-- STATUS (R189). -/
def execStatus (payload : List Byte) (s : State) : Host.Outcome State Fault Refusal :=
  .next (requestRow 0x34 payload statusRequest s)

/-- CLEAR_COUNTERS (R190). -/
def execClearCounters (payload : List Byte) (s : State) : Host.Outcome State Fault Refusal :=
  .next (requestRow 0x35 payload clearCountersRequest s)

/-- ENGINE_RESET (R191). -/
def execEngineReset (payload : List Byte) (s : State) : Host.Outcome State Fault Refusal :=
  .next (requestRow 0x36 payload engineResetRequest s)

end Sys2Proof.Machine
end

