-- ==== Sys2Proof/Machine/LinkRows.lean ====
section
/-! DEFINITION. The link controllers: any frame of link A, the address filter, the receiver rows and the transmitter (R172
to R179, R184). -/

namespace Sys2Proof.Machine

/-! ## Any frame of link A (R184) -/

/-- The handler of each request kind 0x20 to 0x36 (R183); none for a kind that is not in the table. -/
def requestHandler (kind : Byte) : Option (List Byte → State → State × Reply) :=
  match kind.toNat with
  | 0x20 => some configureLaneRequest
  | 0x21 => some configureWriterRequest
  | 0x22 => some setStyleRequest
  | 0x23 => some setStyleLimitRequest
  | 0x24 => some setFrameRateRequest
  | 0x25 => some setSupervisionRequest
  | 0x26 => some assignRequest
  | 0x27 => some handoverRequest
  | 0x28 => some startRequest
  | 0x29 => some stopRequest
  | 0x2A => some loadBufferRequest
  | 0x2B => some commitRequest
  | 0x2C => some compareRequest
  | 0x2D => some defineSegmentRequest
  | 0x2E => some deleteSegmentRequest
  | 0x2F => some prepareRequest
  | 0x30 => some storeResetRequest
  | 0x31 => some cancelCueRequest
  | 0x32 => some releaseRequest
  | 0x33 => some pollRequest
  | 0x34 => some statusRequest
  | 0x35 => some clearCountersRequest
  | 0x36 => some engineResetRequest
  | _ => none

/-- R184, step 1: an addressed frame of an unknown kind: counted, held back, or refused with BAD_KIND. -/
def State.refuseKind (s : State) (kind : Byte) : State :=
  let s := s.automationGood
  if s.repliesFull .automation then s else s.answer kind (.refused .badKind)

/-- R177, R184: a good frame of any kind addressed to the part on link A. -/
def State.automationFrame (s : State) (kind : Byte) (payload : List Byte) : State :=
  if kind = cueFrameKind then s.cueFrame false payload
  else match requestHandler kind with
    | some handle => s.request kind payload handle
    | none => s.refuseKind kind

/-! ## The address filter and the receiver (R173 to R177) -/

/-- The part address as a byte of a frame (R172, R192). -/
def State.addressByte (s : State) : Byte := BitVec.ofNat 8 s.partAddress

/-- R177: a good frame addressed to the part goes to its link's consumer. -/
def State.deliver (s : State) (k : Link) (kind : Byte) (payload : List Byte) : State :=
  match k with
  | .writer w => (s.countGood k).takeMessage w kind payload
  | .automation => s.automationFrame kind payload
  | .inserter l => s.inserterFrame l kind payload

/-- R176: the address filter, for a frame whose check matches. -/
def State.filterFrame (s : State) (k : Link) (address kind : Byte) (payload : List Byte) : State :=
  if address = s.addressByte then s.deliver k kind payload
  else if address = broadcastAddress ∧ k = .automation then
    if kind = cueFrameKind then s.cueFrame true payload else s.restartSupervision
  else s

/-- R173 to R176: what the receiver made of the bytes reaches the counts, or the filter. -/
def State.receiverEvent (k : Link) (s : State) : RxEvent → State
  | .abort => s.setLink k { s.link k with aborts := saturate ((s.link k).aborts + 1) }
  | .checkError => s.setLink k { s.link k with checks := saturate ((s.link k).checks + 1) }
  | .sizeError => s.setLink k { s.link k with sizes := saturate ((s.link k).sizes + 1) }
  | .frame address kind payload => s.filterFrame k address kind payload

/-- R173: bytes arrive on a link's line, in order. -/
def State.receive (s : State) (k : Link) (line : List LineByte) : State :=
  ((s.link k).rx.run line).2.foldl (State.receiverEvent k)
    (s.setLink k { s.link k with rx := ((s.link k).rx.run line).1 })

/-! ## The transmitter (R179) -/

/-- R172, R179: a frame of the part on the line. -/
def State.sentFrame (s : State) (f : TxFrame) : List Byte := lineFrame s.addressByte f.kind f.payload

/-- R179: the line is free and the earliest waiting frame is sent; with none waiting the transmitter sends flags
(log entry 15). -/
def State.transmit (s : State) (k : Link) : State :=
  match (s.link k).waiting with
  | [] => s
  | f :: rest => s.setLink k { s.link k with waiting := rest, line := s.sentFrame f }

/-! ## The commands -/

/-- AUTOMATION_FRAME_REFUSED (R184): the frame is judged by the kind it has; an unknown one is refused with BAD_KIND. -/
def execAutomationFrameRefused (kind : Byte) (payload : List Byte) (s : State) : Host.Outcome State Fault Refusal :=
  .next ((s.frameClosed .automation).automationFrame kind payload)

/-- TRANSMIT_FRAME (R172, R175, R179). -/
def execTransmitFrame (k : Link) (s : State) : Host.Outcome State Fault Refusal := .next (s.transmit k)

/-- ABORT (R173): the receiver takes the bytes. -/
def execAbort (k : Link) (line : List LineByte) (s : State) : Host.Outcome State Fault Refusal :=
  .next (s.receive k line)

/-- CHECK_ERROR (R173, R175): the receiver takes the bytes. -/
def execCheckError (k : Link) (line : List LineByte) (s : State) : Host.Outcome State Fault Refusal :=
  .next (s.receive k line)

/-- SIZE_ERROR (R174): the receiver takes the bytes. -/
def execSizeError (k : Link) (line : List LineByte) (s : State) : Host.Outcome State Fault Refusal :=
  .next (s.receive k line)

/-- FRAME_IGNORED (R176): the receiver takes the bytes. -/
def execFrameIgnored (k : Link) (line : List LineByte) (s : State) : Host.Outcome State Fault Refusal :=
  .next (s.receive k line)

/-- FLAG_ARRIVAL (R173): one flag byte, with its stop bit. -/
def execFlagArrival (k : Link) (s : State) : Host.Outcome State Fault Refusal :=
  .next (s.receive k [{ value := flagByte, stop := true }])

end Sys2Proof.Machine
end

