-- ==== Sys2Proof/Machine/Dispatch.lean ====
section
/-! DEFINITION. The meaning of each command: one arm per row of spec/opcode_table.json, in the table's order. -/

namespace Sys2Proof.Machine

/-- A command's effect on everything but the queue of waiting commands. -/
def exec (i : Instr) (s : State) : Host.Outcome State Fault Refusal :=
  match i with
  | .powerOn straps => Sys2Proof.Machine.execPowerOn straps s
  | .pulseArrival timecode => Sys2Proof.Machine.execPulseArrival timecode s
  | .pulseSupervisionExpiry => Sys2Proof.Machine.execPulseSupervisionExpiry s
  | .internalGeneratorExpiry => Sys2Proof.Machine.execInternalGeneratorExpiry s
  | .sameFrameWindowClose => Sys2Proof.Machine.execSameFrameWindowClose s
  | .flushTimerExpiry l => Sys2Proof.Machine.execFlushTimerExpiry l s
  | .correctionWindowExpiry l => Sys2Proof.Machine.execCorrectionWindowExpiry l s
  | .cueScheduleDue => Sys2Proof.Machine.execCueScheduleDue s
  | .automationSupervisionExpiry => Sys2Proof.Machine.execAutomationSupervisionExpiry s
  | .word w payload => Sys2Proof.Machine.execWord w payload s
  | .speaker w payload => Sys2Proof.Machine.execSpeaker w payload s
  | .delete w payload => Sys2Proof.Machine.execDelete w payload s
  | .writerTake w payload => Sys2Proof.Machine.execWriterTake w payload s
  | .query w payload => Sys2Proof.Machine.execQuery w payload s
  | .writerFrameRefused w kind payload => Sys2Proof.Machine.execWriterFrameRefused w kind payload s
  | .handover payload => Sys2Proof.Machine.execHandover payload s
  | .inserterRequest l payload => Sys2Proof.Machine.execInserterRequest l payload s
  | .inserterFrameRefused l kind payload => Sys2Proof.Machine.execInserterFrameRefused l kind payload s
  | .configureLane payload => Sys2Proof.Machine.execConfigureLane payload s
  | .configureWriter payload => Sys2Proof.Machine.execConfigureWriter payload s
  | .setStyle payload => Sys2Proof.Machine.execSetStyle payload s
  | .setStyleLimit payload => Sys2Proof.Machine.execSetStyleLimit payload s
  | .setFrameRate payload => Sys2Proof.Machine.execSetFrameRate payload s
  | .setSupervision payload => Sys2Proof.Machine.execSetSupervision payload s
  | .assign payload => Sys2Proof.Machine.execAssign payload s
  | .start payload => Sys2Proof.Machine.execStart payload s
  | .stop payload => Sys2Proof.Machine.execStop payload s
  | .loadBuffer payload => Sys2Proof.Machine.execLoadBuffer payload s
  | .commit payload => Sys2Proof.Machine.execCommit payload s
  | .commitCompletion => Sys2Proof.Machine.execCommitCompletion s
  | .compare payload => Sys2Proof.Machine.execCompare payload s
  | .compareCompletion => Sys2Proof.Machine.execCompareCompletion s
  | .defineSegment payload => Sys2Proof.Machine.execDefineSegment payload s
  | .deleteSegment payload => Sys2Proof.Machine.execDeleteSegment payload s
  | .prepare payload => Sys2Proof.Machine.execPrepare payload s
  | .prepareCompletion => Sys2Proof.Machine.execPrepareCompletion s
  | .storeReset payload => Sys2Proof.Machine.execStoreReset payload s
  | .cancelCue payload => Sys2Proof.Machine.execCancelCue payload s
  | .release payload => Sys2Proof.Machine.execRelease payload s
  | .poll payload => Sys2Proof.Machine.execPoll payload s
  | .status payload => Sys2Proof.Machine.execStatus payload s
  | .clearCounters payload => Sys2Proof.Machine.execClearCounters payload s
  | .engineReset payload => Sys2Proof.Machine.execEngineReset payload s
  | .automationFrameRefused kind payload => Sys2Proof.Machine.execAutomationFrameRefused kind payload s
  | .freeze broadcast rest => Sys2Proof.Machine.execFreeze broadcast rest s
  | .thaw broadcast rest => Sys2Proof.Machine.execThaw broadcast rest s
  | .hold broadcast rest => Sys2Proof.Machine.execHold broadcast rest s
  | .resume broadcast rest => Sys2Proof.Machine.execResume broadcast rest s
  | .stepCue broadcast rest => Sys2Proof.Machine.execStep broadcast rest s
  | .clear broadcast rest => Sys2Proof.Machine.execClear broadcast rest s
  | .join broadcast rest => Sys2Proof.Machine.execJoin broadcast rest s
  | .split broadcast rest => Sys2Proof.Machine.execSplit broadcast rest s
  | .takeCue broadcast rest => Sys2Proof.Machine.execTakeCue broadcast rest s
  | .advance broadcast rest => Sys2Proof.Machine.execAdvance broadcast rest s
  | .endCue broadcast rest => Sys2Proof.Machine.execEnd broadcast rest s
  | .transmitFrame k => Sys2Proof.Machine.execTransmitFrame k s
  | .abort k line => Sys2Proof.Machine.execAbort k line s
  | .checkError k line => Sys2Proof.Machine.execCheckError k line s
  | .sizeError k line => Sys2Proof.Machine.execSizeError k line s
  | .frameIgnored k line => Sys2Proof.Machine.execFrameIgnored k line s
  | .breakMark w payload => Sys2Proof.Machine.execBreak w payload s
  | .flagArrival k => Sys2Proof.Machine.execFlagArrival k s

end Sys2Proof.Machine
end

