-- ==== Sys2Proof/Safety.lean ====
section
/-! DEFINITION. The laws that the spec states of the part's state at every moment, as predicates of a state, and the words
in which the statements about single commands are put. -/

namespace Sys2Proof.Machine

/-! ## The law of capacities (R30, R38, R61, R82, R119, R157, R187, R179, R180, R174) -/

/-- What one lane holds is within its capacities (R38, R61, R82, R157). -/
def Lane.withinCapacity (ln : Lane) : Prop :=
  ln.engine.queue.length ≤ 32 ∧ ln.builder.provisional.length ≤ 4 ∧ ln.builder.recent.length ≤ 12
    ∧ ln.deck.units.length ≤ 48

/-- Frames of a kind among those waiting. -/
def LinkState.countKind (k : LinkState) (kind : Byte) : Nat := (k.waiting.filter fun f => decide (f.kind = kind)).length

/-- What waits on a writer link: at most one ROLE frame and four REFUSED frames, and nothing else (R179). -/
def LinkState.writerLawful (k : LinkState) : Prop :=
  k.countKind roleKind ≤ 1 ∧ k.countKind refusedKind ≤ 4 ∧ ∀ f ∈ k.waiting, f.kind = roleKind ∨ f.kind = refusedKind

/-- R119: the cue schedule stands in order of target SFC. -/
def scheduleInOrder : List ScheduledCue → Prop
  | [] => True
  | [_] => True
  | c :: d :: rest => c.target ≤ d.target ∧ scheduleInOrder (d :: rest)

/-- Every list of the part is within its capacity, and the cue schedule is in order. -/
def State.withinCapacity (s : State) : Prop :=
  (∀ l, (s.lane l).withinCapacity) ∧ (∀ w, (s.writer w).staging.length ≤ 64) ∧ s.schedule.length ≤ 32 ∧ scheduleInOrder s.schedule
    ∧ s.reports.length ≤ 32 ∧ (∀ w, (s.link (.writer w)).writerLawful)
    ∧ (s.link .automation).waiting.length ≤ 4 ∧ (∀ l, (s.link (.inserter l)).waiting.length ≤ 2)
    ∧ ∀ k, (s.link k).rx.body.length ≤ 244

/-! ## Counters (spec/00_scope.md, Conventions) -/

/-- The seven lane counters are 16 bits. -/
def Counters.within (c : Counters) : Prop :=
  c.released ≤ 65535 ∧ c.cut ≤ 65535 ∧ c.stale ≤ 65535 ∧ c.discarded ≤ 65535 ∧ c.suppressed ≤ 65535
    ∧ c.overlap ≤ 65535 ∧ c.late ≤ 65535

/-- The four counts of a link are 16 bits (R178). -/
def LinkState.countsWithin (k : LinkState) : Prop :=
  k.good ≤ 65535 ∧ k.checks ≤ 65535 ∧ k.aborts ≤ 65535 ∧ k.sizes ≤ 65535

/-- Every counter of the part is 16 bits. -/
def State.countersWithin (s : State) : Prop :=
  (∀ l, (s.lane l).counters.within) ∧ (∀ w, (s.writer w).overflows ≤ 65535) ∧ ∀ k, (s.link k).countsWithin

/-! ## The law of roles (R16) -/

/-- Each lane has at most one ON_AIR and at most one STANDBY writer, and a writer that is not STANDBY stages nothing (R16,
R30). -/
def State.rolesLawful (s : State) : Prop :=
  (∀ w v l, (s.writer w).role = .onAir l → (s.writer v).role = .onAir l → w = v)
    ∧ (∀ w v l, (s.writer w).role = .standby l → (s.writer v).role = .standby l → w = v)
    ∧ ∀ w, (∀ l, (s.writer w).role ≠ .standby l) →
      (s.writer w).staging = [] ∧ (s.writer w).marks = Marks.empty ∧ (s.writer w).overflowReported = false

/-! ## The time base (R1 to R11) -/

/-- SFC is a 48-bit count, FOD and the candidate are frames of a day, the miss count is 0 to 3 and counts only in LOCKED,
a candidate stands exactly in VERIFY, and each source has its own timer running. -/
def TimeBase.lawful (t : TimeBase) : Prop :=
  t.sfc < 2 ^ 48 ∧ t.fod < t.rate.day ∧ (∀ c, t.candidate = some c → c < t.rate.day) ∧ t.misses ≤ 3
    ∧ (t.misses ≠ 0 → t.lock = .locked) ∧ (t.lock = .verify ↔ t.candidate.isSome = true)
    ∧ (match t.source with
      | .reference => t.supervision = true ∧ t.generator = false ∧ t.window = false
      | .internal => t.supervision = false ∧ t.generator = true)

/-! ## Lane parameters (R88 to R90) -/

/-- The parameters of a lane lie in the ranges of the parameter table, with the orders between them that R89 keeps. -/
def Params.inRange (p : Params) : Prop :=
  24 ≤ p.width ∧ p.width ≤ 42
    ∧ (match p.mode with | .block => 1 ≤ p.rows ∧ p.rows ≤ 3 | .roll => 2 ≤ p.rows ∧ p.rows ≤ 4)
    ∧ 8 ≤ p.readingRate ∧ p.readingRate ≤ 30
    ∧ 12 ≤ p.hMin ∧ p.hMin ≤ 125 ∧ p.hMin ≤ p.hMax ∧ p.hMax ≤ 375 ∧ 6 ≤ p.hFloor ∧ p.hFloor ≤ p.hMin
    ∧ 25 ≤ p.hClear ∧ p.hClear ≤ 750 ∧ p.lead ≤ 25 ∧ p.delay ≤ 375 ∧ p.correction ≤ 50
    ∧ 13 ≤ p.flush ∧ p.flush ≤ 250 ∧ p.lam1 ≤ 250 ∧ p.lam1 ≤ p.lam2 ∧ p.lam2 ≤ 500 ∧ p.lam2 ≤ p.lamMax
    ∧ p.lamMax ≤ 750 ∧ 25 ≤ p.stale ∧ p.stale ≤ 1500 ∧ p.group ≤ 255

/-- Both lanes' parameters are in range, and the part's numeric settings too (R20, R56, R133). -/
def State.paramsInRange (s : State) : Prop :=
  (∀ l, (s.lane l).params.inRange) ∧ (∀ w, (s.writer w).lag ≤ 375) ∧ 1 ≤ s.styleLimit ∧ s.styleLimit ≤ 16
    ∧ s.supervisionInterval ≤ 60

/-! ## The timeline of a lane (R79, R85, R96, R110, R117) -/

/-- Timed units in order of release: each release frame above the one before. -/
def releasesRise : List TimedUnit → Prop
  | [] => True
  | [_] => True
  | t :: u :: rest => t.release < u.release ∧ releasesRise (u :: rest)

/-- A stopped lane holds no unit, and no take waits on it (R117). -/
def Lane.stoppedEmpty (ln : Lane) : Prop :=
  ln.state = .stopped →
    ln.builder.openUnit = none ∧ ln.builder.provisional = [] ∧ ln.builder.flush = none ∧ ln.engine.queue = []
      ∧ ln.display.nextReady = false ∧ ln.deck.pendingTake = none ∧ (∀ g, ln.deck.state ≠ .playing g)
      ∧ ln.source = .live

/-- The units waiting for release rise in release frame and minimum display, none above the record; without a record no
unit waits (R79, R85). -/
def Lane.timelineLawful (ln : Lane) : Prop :=
  ln.stoppedEmpty ∧ releasesRise ln.walk ∧ (∀ t ∈ ln.walk, 0 < t.minimum)
    ∧ (match ln.engine.record with
      | none => ln.walk = []
      | some x => ∀ t ∈ ln.walk, t.release ≤ x.release)
    ∧ (ln.display.nextReady = true →
      ∃ t, ln.display.next.unit = some t ∧ ln.display.next.release = some t.release)

/-- R95, R100: the air image carries the release serial. -/
def DisplaySet.serialLawful (d : DisplaySet) : Prop := d.serial < 65536 ∧ d.air.serial = some d.serial

/-- R50: a unit that the builder holds has at least one word. -/
def Builder.unitsHoldWords (b : Builder) : Prop :=
  (∀ u, b.openUnit = some u → u.words ≠ []) ∧ ∀ q ∈ b.provisional, q.unit.words ≠ []

/-- The timeline laws of both lanes, with the parameter ranges they rest on (R78, R89). -/
def State.timelinesLawful (s : State) : Prop :=
  ∀ l, (s.lane l).timelineLawful ∧ (s.lane l).display.serialLawful ∧ (s.lane l).params.inRange
    ∧ (s.lane l).builder.unitsHoldWords

/-! ## The script store and the decks (R142 to R150, R157) -/

/-- A deck is PREPARING a segment. -/
def Deck.preparing (d : Deck) (g : Nat) : Prop := d.state = .preparing g

/-- Memory in its canonical form within its pages; a page is WRITING exactly while a COMMIT to it is in flight, a buffer is
locked exactly while a COMMIT from it is, a deck is PREPARING exactly while its PREPARE is, a segment being prepared is
defined, a segment lies within the pages, and a lane's source is SCRIPT exactly while its deck plays. -/
def State.storeLawful (s : State) : Prop :=
  s.store.text.wf = true ∧ (∀ c ∈ s.store.text, c.1 < 96 * 512)
    ∧ (∀ b, (s.store.buffer b).chars.wf = true ∧ ∀ c ∈ (s.store.buffer b).chars, c.1 < 96)
    ∧ (∀ p, s.store.page p = .writing ↔ ∃ b, s.store.engine = .commit b p)
    ∧ (∀ b, (s.store.buffer b).locked = true ↔ ∃ p, s.store.engine = .commit b p)
    ∧ (∀ l g, (s.lane l).deck.preparing g ↔ s.store.engine = .prepare g l)
    ∧ (∀ g l, s.store.engine = .prepare g l → (s.store.segment g).isSome = true)
    ∧ (∀ g x, s.store.segment g = some x → 1 ≤ x.count ∧ x.count ≤ 32 ∧ x.first + x.count ≤ 512)
    ∧ ∀ l, (s.lane l).source = .script ↔ ∃ g, (s.lane l).deck.state = .playing g

/-! ## Words for statements about one command -/

/-- Link A has room for one more reply (R180). -/
def State.canAnswer (s : State) : Prop := s.links.automation.waiting.length < 4

/-- The links after a frame taken on link A and answered (R173, R176, R180): its closing flag opens the next frame, it is
counted, and the reply stands last among the frames waiting there; no other link is touched. -/
def linksAnswered (k : Links) (reply : TxFrame) : Links :=
  { k with automation := { k.automation with
      rx := Receiver.inFrame, good := min (k.automation.good + 1) 65535, waiting := k.automation.waiting ++ [reply] } }

/-- The links after a good frame on a link that gets no reply there: the closing flag opens the next frame and the frame is
counted. -/
def linksCounted (k : Links) (x : Link) : Links :=
  k.set x { k.get x with rx := Receiver.inFrame, good := min ((k.get x).good + 1) 65535 }

/-- The supervision timer's expiry after a good frame on link A (R134). -/
def supervisionRestarted (s : State) : Option Nat :=
  if s.supervisionInterval = 0 then s.supervisionExpiry
  else some (s.time.sfc + s.supervisionInterval * s.time.rate.hz)

/-- The ACK of a request: its kind, and the ACK value, if it has one, in 6 bytes (R185). -/
def ackOf (kind : Byte) (value : Option Nat) : TxFrame :=
  { kind := 0x50, payload := kind :: (match value with | none => [] | some v => leBytes 6 v) }

/-- The part after a request taken on link A that does nothing else: counted, supervision restarted, answered. -/
def State.answered (s : State) (reply : TxFrame) : State :=
  { s with links := linksAnswered s.links reply, supervisionExpiry := supervisionRestarted s }

/-- The part after a good frame on link A that gets no reply and does nothing else. -/
def State.heard (s : State) : State :=
  { s with links := linksCounted s.links .automation, supervisionExpiry := supervisionRestarted s }

/-- The part after a writer's frame that does nothing else: counted. -/
def State.messaged (s : State) (w : WriterId) : State := { s with links := linksCounted s.links (.writer w) }

/-- The writer is ON_AIR on a RUNNING lane whose source is LIVE and which is not lane 1 while FOLLOWING: its messages reach
the lane builder (R23). -/
def State.typesOn (s : State) (w : WriterId) (l : LaneId) : Prop :=
  (s.writer w).role = .onAir l ∧ (s.lane l).state = .running ∧ (s.lane l).source = .live
    ∧ (l = .lane1 → s.following = false)

/-- Room for a report (R187). -/
def State.canReport (s : State) : Prop := s.reports.length < 32

/-- A report of the part, stamped with the SFC as it stands (R1, R187). -/
def State.note (s : State) (kind : ReportKind) (lane : Option LaneId) (writer : Option WriterId) (value : Option Nat) :
    Report :=
  { kind := kind, lane := lane, writer := writer, value := value, stamp := s.time.sfc }

/-- What an absent or invalid word does to the lock at a frame event (R8 to R10). -/
def TimeBase.unconfirmed (before after : TimeBase) : Prop :=
  match before.lock with
  | .search => after.lock = .search ∧ after.candidate = none
  | .verify => after.lock = .search ∧ after.candidate = none
  | .locked =>
    if before.misses < 2 then after.lock = .locked ∧ after.misses = before.misses + 1
    else after.lock = .search ∧ after.misses = 0

/-- A unit that closes now finds a free place on the provisional list, no unit there is due, and its own window lies ahead,
so that nothing is timed (R61 to R63). -/
def State.closesQuietly (s : State) (l : LaneId) : Prop :=
  (s.lane l).builder.provisional.length < 4 ∧ (∀ p ∈ (s.lane l).builder.provisional, s.time.sfc < p.windowEnd)
    ∧ 0 < (s.lane l).params.correction

/-- A unit closed at this SFC with this cause, on the provisional list with its window end (R57a). -/
def State.closedUnit (s : State) (l : LaneId) (u : CaptionUnit) (cause : CloseCause) : Provisional :=
  { unit := { u with closeFrame := some s.time.sfc, closeCause := some cause }
    windowEnd := s.time.sfc + (s.lane l).params.correction }

/-- The part after a lane's open unit closes with a cause and nothing is timed. -/
def State.closing (s t : State) (l : LaneId) (u : CaptionUnit) (cause : CloseCause) : State :=
  t.setLane l { s.lane l with builder := { (s.lane l).builder with
    openUnit := none, flush := none
    provisional := (s.lane l).builder.provisional ++ [s.closedUnit l u cause] } }

/-- The lines that a unit may have (R52). -/
def Params.linesAllowed (p : Params) : Nat := match p.mode with | .block => p.rows | .roll => 1

/-- The lines and the label of a unit that a word begins where a label is due or not (R53): the label stands before the word
where both fit a line, alone on the first line where the line limit allows a second, and otherwise the unit has no label. -/
def Params.begun (p : Params) (labelDue : Bool) (label text : Text) : List Text × Option Text :=
  if labelDue = true ∧ label ≠ [] then
    if label.length + 1 + text.length ≤ p.width then ([label ++ [0x20] ++ text], some label)
    else if 1 < p.linesAllowed then ([label, text], some label)
    else ([text], none)
  else ([text], none)

/-- The lines and the label of a unit that a word begins on a lane in a style (R53). -/
def Lane.begun (ln : Lane) (e : StyleEntry) (text : Text) : List Text × Option Text :=
  ln.params.begun ln.builder.pendingLabel e.label text

/-- A word placed behind the lines of a unit (R52): on the current line where it fits, or on a new line where the line limit
allows one; none where the unit is full. -/
def Params.placed (p : Params) (lines : List Text) (word : CapWord) : Option (List Text) :=
  let current := lines.getLastD []
  let joined := current ++ (if word.attach = true ∨ current = [] then [] else [0x20]) ++ word.text
  if joined.length ≤ p.width then some (lines.dropLast ++ [joined])
  else if lines.length < p.linesAllowed then some (lines ++ [word.text])
  else none

/-- The entry of the style table that a style index names (R54). -/
def State.styleEntry (s : State) (i : Nat) : StyleEntry := (s.styles[i]?).getD StyleEntry.plain

/-- The unit that a word of the on-air writer, arriving now, begins on a lane (R53, R60). -/
def State.begunUnit (s : State) (l : LaneId) (w : WriterId) (e : StyleEntry) (word : CapWord) : CaptionUnit :=
  { lane := l, lines := ((s.lane l).begun e word.text).1, words := [word], style := e.style
    label := ((s.lane l).begun e word.text).2, origin := .live w, firstArrival := some s.time.sfc
    onset := some ((s.time.sfc : Int) - (s.writer w).lag), closeFrame := none, closeCause := none, cut := false }

/-- The lane's builder after a word arriving now is placed in this unit (R38, R51, R58): the word joins the recent-word
window, which keeps its newest 12 entries, and restarts the flush timer. -/
def State.afterWord (s : State) (l : LaneId) (text : Text) (u : CaptionUnit) (provisional : List Provisional)
    (pendingLabel : Bool) : Builder :=
  { (s.lane l).builder with
    openUnit := some u, provisional := provisional, pendingLabel := pendingLabel
    recent := ((s.lane l).builder.recent ++ [text]).drop ((s.lane l).builder.recent.length + 1 - 12)
    flush := some (s.time.sfc + (s.lane l).params.flush) }

/-- The links after a writer's frame is refused: counted, and a REFUSED frame with the reason and the kind joins those
waiting, unless four REFUSED frames wait (R29, R179). -/
def linksRefused (k : Links) (w : WriterId) (reason kind : Byte) : Links :=
  let x := k.get (.writer w)
  k.set (.writer w) { x with
    rx := Receiver.inFrame, good := min (x.good + 1) 65535
    waiting := if x.countKind refusedKind < 4 then x.waiting ++ [{ kind := 0x51, payload := [reason, kind] }] else x.waiting }

/-- A writer's message passes the check of its role (R21): it is STANDBY, or ON_AIR on a RUNNING lane. -/
def State.passesRole (s : State) (w : WriterId) : Prop :=
  ∃ l, (s.writer w).role = .standby l ∨ ((s.writer w).role = .onAir l ∧ (s.lane l).state = .running)

/-! ### The replay of a handover (R42 to R46), where nothing is timed -/

/-- The builder after its open unit, if any, closes with a cause at this SFC and nothing is timed (R57a, R63). -/
def State.closedQuietly (s : State) (l : LaneId) (cause : CloseCause) (b : Builder) : Builder :=
  match b.openUnit with
  | none => b
  | some u => { b with openUnit := none, flush := none, provisional := b.provisional ++ [s.closedUnit l u cause] }

/-- The builder after marks are applied (R45, R57): a break, then a speaker change. -/
def State.marked (s : State) (l : LaneId) (m : Marks) (b : Builder) : Builder :=
  let b := if m.brk then s.closedQuietly l .brk b else b
  match m.speaker with
  | none => b
  | some i =>
    { s.closedQuietly l .speaker b with style := if i.toNat < s.styleLimit then i.toNat else 0, pendingLabel := true }

/-- The builder after a staged entry of a writer is replayed: its marks, then its word with the arrival it was staged with
(R45, R51 to R53, R60). -/
def State.replayed (s : State) (l : LaneId) (w : WriterId) (b : Builder) (e : Staged) : Builder :=
  let p := (s.lane l).params
  let word : CapWord := { text := e.text, attach := e.attach }
  let create (b : Builder) : Builder :=
    let laid := p.begun b.pendingLabel (s.styleEntry b.style).label e.text
    { b with
      openUnit := some
        { lane := l, lines := laid.1, words := [word], style := (s.styleEntry b.style).style, label := laid.2
          origin := .live w, firstArrival := some e.arrival, onset := some ((e.arrival : Int) - (s.writer w).lag)
          closeFrame := none, closeCause := none, cut := false }
      pendingLabel := false }
  let b := s.marked l e.marks b
  let b := match b.openUnit with
    | none => create b
    | some u =>
      match p.placed u.lines word with
      | some lines => { b with openUnit := some { u with lines := lines, words := u.words ++ [word] } }
      | none => create (s.closedQuietly l .full b)
  { b with
    recent := (b.recent ++ [e.text]).drop (b.recent.length + 1 - 12)
    flush := some (s.time.sfc + p.flush) }

/-- Marks folded in the order they were typed (R30): a break if any carries one, and the latest speaker. -/
def foldedMarks (ms : List Marks) : Marks :=
  { brk := ms.any Marks.brk
    speaker := (ms.map Marks.speaker).foldl (fun older newer => newer.or older) none }

/-- What is left to replay after an overlap of k entries (R44, R45): the marks of the entries dropped are folded onto the
oldest entry left, or, where none is left, onto the pending marks. -/
def Writer.toReplay (x : Writer) (k : Nat) : List Staged × Marks :=
  let dropped := (x.staging.take k).map Staged.marks
  match x.staging.drop k with
  | [] => ([], foldedMarks (dropped ++ [x.marks]))
  | e :: es => ({ e with marks := foldedMarks (dropped ++ [e.marks]) } :: es, x.marks)

/-- The STYLE_LIMIT reports of marks that are applied, in their order (R57). -/
def State.limitReports (s : State) (l : LaneId) (w : WriterId) (ms : List Marks) : List Report :=
  ms.flatMap fun m =>
    match m.speaker with
    | none => []
    | some i => if i.toNat < s.styleLimit then [] else [s.note .styleLimit (some l) (some w) (some i.toNat)]

/-- A lane is the only one addressed by a group mask (R120). -/
def State.onlyAddresses (s : State) (mask : Byte) (l : LaneId) : Prop :=
  mask ≠ 0 ∧ ∀ m, mask &&& BitVec.ofNat 8 (s.lane m).params.group ≠ 0 ↔ m = l

/-- The lanes with a change made on each lane that a cue with this group mask reaches, and on no other: the lane is addressed
(R120) and RUNNING (R121). -/
def State.onReached (s : State) (mask : Byte) (f : Lane → Lane) : PerLane Lane :=
  let part (l : LaneId) : Lane :=
    if (mask = 0 ∨ mask &&& BitVec.ofNat 8 (s.lane l).params.group ≠ 0) ∧ (s.lane l).state = .running then f (s.lane l)
    else s.lane l
  { lane0 := part .lane0, lane1 := part .lane1 }

/-- The part after a cue frame is taken and before the cue acts: an addressed one is answered with ACK, a broadcast one gets
no reply (R118). -/
def State.cueHeard (s : State) (broadcast : Bool) : State :=
  if broadcast then s.heard else s.answered (ackOf 0x40 none)

/-- A CUE frame after its kind byte, without a target: mask, tag, segment, target absent, and three bytes that are not
read (R118, R182). -/
def immediateCue (mask tag segment a b c : Byte) : List Byte := [mask, tag, segment, 0, a, b, c]

/-- The part after a CUE frame is refused at its arrival with a reason and its code (R118): the report, and the reply to an
addressed one. -/
def State.cueRefused (s : State) (broadcast : Bool) (reason : Reason) (code : Byte) (tag : Option Nat) : State :=
  { (if broadcast then s.heard else s.answered { kind := 0x51, payload := [code, 0x40] }) with
    reports := s.reports ++ [s.note (.refuse reason) none none tag] }

/-- A target in three bytes, low byte first (R182). -/
def targetOf (a b c : Byte) : Nat := a.toNat + 256 * (b.toNat + 256 * c.toNat)

/-- How far ahead of FOD a FOD target lies, modulo P (R13). -/
def TimeBase.ahead (t : TimeBase) (target : Nat) : Nat := (target + t.rate.day - t.fod) % t.rate.day

/-- The release serial one further (R100). -/
def DisplaySet.serialAfter (d : DisplaySet) : Nat := (d.serial + 1) % 65536

/-- The display set after a release at an SFC: next and air exchanged, the serial advanced (R99, R100). -/
def DisplaySet.releasedAt (d : DisplaySet) (sfc : Nat) : DisplaySet :=
  { d with
    air := { d.next with serial := some d.serialAfter }, next := d.air, nextReady := false, onAir := sfc
    serial := d.serialAfter, changed := true }

/-- The display set after CLEAR, JOIN or SPLIT (R109). -/
def DisplaySet.blankedByCue (d : DisplaySet) : DisplaySet :=
  if d.air.rows = [] then { d with nextReady := false, changed := true }
  else
    { d with nextReady := false, changed := true, air := Image.blank (some d.serialAfter), serial := d.serialAfter }

/-- The display set at START, STOP or ENGINE RESET (R110). -/
def displayReset (sfc : Nat) : DisplaySet :=
  { compose := Image.blank none, next := Image.blank none, nextReady := false, air := Image.blank (some 0)
    onAir := sfc, serial := 0, changed := true, missRun := 0, matchRun := 0, alignFault := false }

/-- A builder with nothing in it, in a style state (R68). -/
def emptyBuilder (style : Nat) (pendingLabel : Bool) : Builder :=
  { openUnit := none, provisional := [], recent := [], flush := none, style := style, pendingLabel := pendingLabel }

/-- A timing engine with nothing in it (R85). -/
def emptyEngine (nextRef : Nat) : Engine := { queue := [], record := none, level := .level0, nextRef := nextRef }

/-- A deck in a state, with no unit. -/
def bareDeck (state : DeckState) (pendingTake : Option PendingTake) : Deck :=
  { state := state, units := [], nextIndex := none, pacing := none, onsets := [], pendingTake := pendingTake }

/-! ### Composition (R95 to R98) -/

/-- The rows of the image composed of a unit over an air image. In BLOCK mode the row k places above the bottom row holds
the line k places before the unit's last, and is empty where there is none (R97). In ROLL mode the bottom row holds the
unit's line, and each other row what the air image's row below it held, empty for a blank air image (R98). -/
def Params.rowsOf (p : Params) (air : Image) (u : CaptionUnit) : List (Option Row) :=
  match p.mode with
  | .block =>
    (List.range p.rows).reverse.map fun k => (u.lines.reverse[k]?).map fun t => { text := t, style := u.style }
  | .roll =>
    ((List.range (p.rows - 1)).reverse.map fun k => (air.rows.reverse[k]?).getD none)
      ++ [some { text := u.lines.getLastD [], style := u.style }]

/-- The lane after composition, where its three conditions hold: the next-ready flag clear, not FROZEN, the queue not empty
(R96). The head of the queue becomes the next unit; the compose and next buffers are exchanged (R95). -/
def Lane.composed (ln : Lane) : Lane :=
  match ln.engine.queue with
  | t :: rest =>
    if ln.display.nextReady = false ∧ ln.frozen = false then
      { ln with
        engine := { ln.engine with queue := rest }
        display := { ln.display with
          compose := ln.display.next
          next := { rows := ln.params.rowsOf ln.display.air t.unit, release := some t.release, cut := t.unit.cut
                    serial := none, unit := some t }
          nextReady := true } }
    else ln
  | [] => ln

/-- No AUTO deck plays on the lane, so that a place freed in its queue takes no deck unit (R166). -/
def Lane.feedsNothing (ln : Lane) : Prop := ∀ g, ln.deck.state = .playing g → ln.deck.pacing ≠ some .auto

/-- The lane after a release at an SFC and the composition that follows it (R96, R99, R100). -/
def Lane.released (ln : Lane) (sfc : Nat) : Lane :=
  ({ ln with
    display := ln.display.releasedAt sfc
    counters := { ln.counters with released := min (ln.counters.released + 1) 65535 } } : Lane).composed

/-! ### The timing of a live unit and the CUT mark (R62, R80 to R82, R102) -/

/-- The lane after this timed unit joins its queue and nothing else (R81), before composition. -/
def Lane.queueing (ln : Lane) (t : TimedUnit) : Lane :=
  { ln with engine :=
      { queue := ln.engine.queue ++ [t], record := some { release := t.release, minimum := t.minimum, ref := t.ref }
        level := t.level, nextRef := t.ref + 1 } }

/-- The lane after these units wait on its provisional list. -/
def Lane.provisionally (ln : Lane) (ps : List Provisional) : Lane :=
  { ln with builder := { ln.builder with provisional := ps } }

/-- A unit with its CUT mark set (R80). -/
def TimedUnit.withCut (t : TimedUnit) : TimedUnit := { t with unit := { t.unit with cut := true } }

/-- An image with the CUT mark of its unit set; rows and release frame are unchanged (R102). -/
def Image.withCut (i : Image) (v : TimedUnit) : Image := { i with cut := true, unit := some v.withCut }

/-- The image does not hold the unit that a record names. `ref` is the model's (log entry 4). -/
def Image.isNot (i : Image) (x : LastTimed) : Prop := ∀ t, i.unit = some t → t.ref ≠ x.ref

/-- None of these units is the one that a record names. -/
def noneIs (ts : List TimedUnit) (x : LastTimed) : Prop := ∀ t ∈ ts, t.ref ≠ x.ref

/-- The lane with one more unit cut (R80). -/
def Lane.countingCut (ln : Lane) : Lane :=
  { ln with counters := { ln.counters with cut := min (ln.counters.cut + 1) 65535 } }

/-- The display set after the CUT mark is set on the air image: the serial advances, the changed flag is set (R100, R102). -/
def DisplaySet.airCut (d : DisplaySet) (v : TimedUnit) : DisplaySet :=
  { d with air := { d.air.withCut v with serial := some d.serialAfter }, serial := d.serialAfter, changed := true }

/-! ### Deletions (R65, R66) -/

/-- The units that a DELETE removes whole, where it reaches past these provisional units: the open unit, if any, and they. -/
def Builder.reached (b : Builder) (gone : List Provisional) : List CaptionUnit :=
  b.openUnit.toList ++ gone.map Provisional.unit

/-- The words of some units, counted. -/
def wordsOf (us : List CaptionUnit) : Nat := (us.map fun u => u.words.length).sum

/-- The builder after a DELETE removes the open unit, if any, and these provisional units whole, and as many words as are
counted here in all; these provisional units are left (R65, R66, R39). -/
def Builder.withoutUnits (b : Builder) (gone left : List Provisional) (words : Nat) : Builder :=
  { b with
    openUnit := none, flush := if b.openUnit = none then b.flush else none, provisional := left
    recent := b.recent.take (b.recent.length - words)
    pendingLabel := b.pendingLabel || (b.reached gone).any fun u => u.label.isSome }

/-- A unit whose words are now these (R66). -/
def CaptionUnit.shortenedTo (u : CaptionUnit) (p : Params) (ws : List CapWord) : CaptionUnit :=
  { u with words := ws, lines := layLines p u.label ws }

/-! ### The retime (R127, R128) -/

/-- The waiting units of a lane, in order: the unit of a ready next buffer, then the timed queue (R127). -/
def Lane.waitingUnits (ln : Lane) : List TimedUnit :=
  (if ln.display.nextReady = true then ln.display.next.unit.toList else []) ++ ln.engine.queue

/-- A waiting unit survives a retime: b + Λstale does not lie before `now` (R127). -/
def TimedUnit.survives (t : TimedUnit) (p : Params) (now : Nat) : Bool := decide (now ≤ t.base + p.stale)

/-- The survivors of a retime, raised (R127): the first to at least `now`, each later one to at least the release of the
survivor before it, as raised, plus that one's effective minimum. -/
def Lane.survivors (ln : Lane) (now : Nat) : List TimedUnit :=
  (ln.waitingUnits.filter fun t => t.survives ln.params now).foldl
    (fun done t => done
      ++ [{ t with release := match done.getLast? with
            | none => max t.release now
            | some v => max t.release (v.release + v.minimum) }])
    []

/-- The number of waiting units that a retime discards (R128). -/
def Lane.discarded (ln : Lane) (now : Nat) : Nat := ln.waitingUnits.length - (ln.survivors now).length

/-- The lane after a retime at `now` and the composition that may follow it (R86, R108, R127, R128). -/
def Lane.retimedAt (ln : Lane) (now : Nat) : Lane :=
  let kept := ln.survivors now
  let walked : Lane := { ln with
    engine := { ln.engine with
      queue := kept
      record := (kept.getLast?.map fun t => ({ release := t.release, minimum := t.minimum, ref := t.ref } : LastTimed)).or
        ln.engine.record }
    display := { ln.display with onAir := now }
    counters :=
      if ln.discarded now = 0 then ln.counters
      else { ln.counters with stale := min (ln.counters.stale + ln.discarded now) 65535 } }
  Lane.composed <|
    match if ln.display.nextReady = true then ln.display.next.unit else none with
    | none => walked
    | some t =>
      if t.survives ln.params now then
        { walked with
          engine := { walked.engine with queue := kept.drop 1 }
          display := { walked.display with
            next := { ln.display.next with release := kept.head?.map TimedUnit.release, unit := kept.head? } } }
      else { walked with display := { walked.display with nextReady := false } }

/-- The report of a retime that discards units (R128). -/
def State.staleReports (s : State) (l : LaneId) (k : Nat) : List Report :=
  if k = 0 then [] else [s.note .unitsStale (some l) none (some k)]

/-- The part after the last of the flags of a lane that is now this is cleared and the lane retimed (R126 to R128). -/
def State.retimed (s : State) (l : LaneId) (ln : Lane) : State :=
  { s.setLane l (ln.retimedAt s.time.sfc) with
    reports := s.reports ++ s.staleReports l (ln.discarded s.time.sfc) }

/-! ### Automation withdraw (R136) -/

/-- A withdraw retimes the lane: it is RUNNING, and FROZEN or HELD. -/
def Lane.retimesAtWithdraw (ln : Lane) : Bool := decide (ln.state = .running) && (ln.frozen || ln.held)

/-- The lane after automation withdraw at `now` (R136): a READY or PLAYING deck EMPTY, the source LIVE, a pending take
dropped, and, on a RUNNING lane with a flag set, both flags clear and the lane retimed. -/
def Lane.withdrawnAt (ln : Lane) (now : Nat) : Lane :=
  let freed : Lane := { ln with
    source := .live
    deck := match ln.deck.state with
      | .ready _ => bareDeck .empty none
      | .playing _ => bareDeck .empty none
      | _ => { ln.deck with pendingTake := none } }
  if ln.retimesAtWithdraw then ({ freed with frozen := false, held := false } : Lane).retimedAt now else freed

/-- The reports of automation withdraw with this value, in their order (R136). -/
def State.withdrawReports (s : State) (value : Nat) : List Report :=
  ([.lane0, .lane1] : List LaneId).flatMap (fun l =>
      s.staleReports l (if (s.lane l).retimesAtWithdraw then (s.lane l).discarded s.time.sfc else 0))
    ++ ([.lane0, .lane1] : List LaneId).flatMap (fun l =>
      ((s.lane l).deck.pendingTake.map fun take => s.note .takeAbandoned (some l) none (some take.tag)).toList)
    ++ [s.note .automationWithdraw none none (some value)]

/-- The part after automation withdraw, with this value in its report (R136). -/
def State.withdrawn (s : State) (value : Nat) : State :=
  { s with
    lanes := { lane0 := (s.lane .lane0).withdrawnAt s.time.sfc, lane1 := (s.lane .lane1).withdrawnAt s.time.sfc }
    schedule := [], supervisionExpiry := none, reports := s.reports ++ s.withdrawReports value }

/-! ### Replies to inserters (R103 to R107) -/

/-- The links after an inserter's frame is taken and answered (R173, R176, R180). -/
def linksServed (k : Links) (l : LaneId) (reply : TxFrame) : Links :=
  k.set (.inserter l) { k.get (.inserter l) with
    rx := Receiver.inFrame, good := min ((k.get (.inserter l)).good + 1) 65535
    waiting := (k.get (.inserter l)).waiting ++ [reply] }

/-- The status flags of a reply, with RUNNING, FROZEN, HELD and SCRIPT from this lane (R105). -/
def Lane.shownFlags (ln : Lane) (following alignFault : Bool) : Nat :=
  (if ln.state = .running then 1 else 0) + (if ln.frozen then 2 else 0) + (if ln.held then 4 else 0)
    + (if following then 8 else 0) + (if alignFault then 16 else 0) + (if ln.source = .script then 32 else 0)

/-- A DISPLAY reply of a lane (R182). -/
def displayFrame (l : LaneId) (flags serial : Nat) (im : Image) : TxFrame :=
  { kind := 0x68, payload := displayPayload (laneNumber l) flags serial im }

/-- An UNCHANGED reply of a lane (R182). -/
def unchangedFrame (l : LaneId) (flags serial : Nat) : TxFrame :=
  { kind := 0x69, payload := leBytes 1 (laneNumber l) ++ leBytes 1 flags ++ leBytes 2 serial }

/-- The display set after its air image is blanked at a request (R101). -/
def DisplaySet.blankedAt (d : DisplaySet) (mode : Mode) : DisplaySet :=
  { d with
    air := Image.blank (some d.serialAfter), serial := d.serialAfter, changed := true
    next :=
      if mode = .roll ∧ d.nextReady = true then
        { d.next with rows := List.replicate (d.next.rows.length - 1) none ++ d.next.rows.drop (d.next.rows.length - 1) }
      else d.next }

/-- The expected timecode (FOD − D) mod P of a lane (R111). -/
def State.expectedWord (s : State) (l : LaneId) : Int :=
  ((s.time.fod : Int) - (s.lane l).params.delay) % (s.time.rate.day : Int)

/-- A request's word is a match (R111): valid, and at most 2 frames from the expected value, the shorter way round. -/
def State.wordMatches (s : State) (l : LaneId) (word : Option Nat) : Bool :=
  match word with
  | none => false
  | some v =>
    decide (min (((v : Int) - s.expectedWord l) % (s.time.rate.day : Int))
      ((s.expectedWord l - v) % (s.time.rate.day : Int)) ≤ 2)

/-- The display set after one evaluation of a request's word (R112). -/
def DisplaySet.evaluated (d : DisplaySet) (isMatch : Bool) : DisplaySet :=
  if isMatch then
    { d with
      missRun := 0
      matchRun := if d.alignFault = false then d.matchRun else if d.matchRun < 2 then d.matchRun + 1 else 0
      alignFault := d.alignFault && decide (d.matchRun < 2) }
  else
    { d with
      matchRun := 0, missRun := min 3 (d.missRun + 1)
      alignFault := d.alignFault || decide (2 ≤ d.missRun) }

/-- The reports of that evaluation (R112). -/
def State.evaluationReports (s : State) (l : LaneId) (word : Option Nat) : List Report :=
  if s.wordMatches l word then
    if (s.lane l).display.alignFault = true ∧ 2 ≤ (s.lane l).display.matchRun then
      [s.note .alignRestored (some l) none none]
    else []
  else if (s.lane l).display.alignFault = false ∧ 2 ≤ (s.lane l).display.missRun then
    [s.note .alignFault (some l) none
      (word.map fun v => (((v : Int) - s.expectedWord l) % (s.time.rate.day : Int)).toNat)]
  else []

/-! ### Lane parameters (R88 to R90, R160) -/

/-- The parameters that R88 only clamps to a range of their own: number, range, and the write. -/
def plainParams : List (Byte × Nat × Nat × (Nat → Params → Params)) :=
  [(3, 8, 30, fun v p => { p with readingRate := v }), (7, 25, 750, fun v p => { p with hClear := v }),
    (8, 0, 25, fun v p => { p with lead := v }), (9, 0, 375, fun v p => { p with delay := v }),
    (10, 0, 50, fun v p => { p with correction := v }), (11, 13, 250, fun v p => { p with flush := v }),
    (15, 25, 1500, fun v p => { p with stale := v })]

/-- The part after a CONFIGURE-LANE is answered and a lane has these parameters. -/
def State.withParams (s : State) (l : LaneId) (p : Params) (applied : Nat) : State :=
  (s.answered (ackOf 0x20 (some applied))).setLane l { s.lane l with params := p }

/-- The part after a write of mode, width or rows on a STOPPED lane (R90, R160): where it changes one of the three, a READY
deck is invalidated and reported. -/
def State.withLayout (s : State) (l : LaneId) (p : Params) (applied : Nat) : State :=
  match (s.lane l).deck.state with
  | .ready g =>
    if p = (s.lane l).params then s.withParams l p applied
    else
      { (s.answered (ackOf 0x20 (some applied))).setLane l { s.lane l with
          params := p, deck := bareDeck .empty (s.lane l).deck.pendingTake } with
        reports := s.reports ++ [s.note .deckInvalidated (some l) none (some g)] }
  | _ => s.withParams l p applied

/-! ### Timing and decks (R74 to R79, R161 to R167) -/

/-- The unit `t` is this unit timed at `now` with this onset, behind this last-timed record, by R74 to R79. `t.ref` is the
model's (log entry 4). -/
def timedAfter (p : Params) (rate : Rate) (now : Nat) (record : Option LastTimed) (u : CaptionUnit) (onset : Int)
    (t : TimedUnit) : Prop :=
  let late := match record with | none => 0 | some x => x.release + x.minimum - t.base
  t.unit = { u with onset := some onset } ∧ (t.base : Int) = max (onset + p.delay - p.lead) now
    ∧ t.level = (if late ≤ p.lam1 then .level0 else if late ≤ p.lam2 then .level1 else .level2)
    ∧ t.minimum = max (match t.level with
        | .level0 => baseMinimum p rate u.count
        | .level1 => (3 * baseMinimum p rate u.count + 3) / 4
        | .level2 => (baseMinimum p rate u.count + 1) / 2) p.hFloor
    ∧ t.release = (match record with
      | none => t.base + min late p.lamMax
      | some x => max (t.base + min late p.lamMax) (x.release + 1))

/-- The lane after a take makes its deck PLAYING (R162, step 2). That the next index counts from 0 is log entry 22. -/
def Lane.taken (ln : Lane) (g : Nat) (pacing : Pacing) (onsets : List Nat) : Lane :=
  { ln with
    source := .script
    deck := { ln.deck with state := .playing g, nextIndex := some 0, pacing := some pacing, onsets := onsets } }

/-- The lane after units of its PLAYING deck are timed and join the queue, before composition (R38, R81, R83, R164, R166);
after the last of the deck it is EMPTY and the source LIVE (R167). -/
def Lane.played (ln : Lane) (ts : List TimedUnit) (left : List CaptionUnit) : Lane :=
  { ln with
    source := if left = [] then .live else ln.source
    builder := { ln.builder with
      recent := (ts.flatMap fun t => t.unit.words.map CapWord.text).foldl joinWindow ln.builder.recent }
    engine :=
      { queue := ln.engine.queue ++ ts
        record :=
          (ts.getLast?.map fun t => ({ release := t.release, minimum := t.minimum, ref := t.ref } : LastTimed)).or
            ln.engine.record
        level := (ts.getLast?.map TimedUnit.level).getD ln.engine.level
        nextRef := (ts.getLast?.map fun t => t.ref + 1).getD ln.engine.nextRef }
    deck :=
      if left = [] then bareDeck .empty ln.deck.pendingTake
      else { ln.deck with
        units := left, nextIndex := ln.deck.nextIndex.map (· + ts.length), onsets := ln.deck.onsets.drop ts.length } }

/-- The part with this lane, and with SEGMENT_END queued where no unit of the segment is left (R167). -/
def State.playing (s : State) (l : LaneId) (ln : Lane) (g : Nat) (left : List CaptionUnit) : State :=
  { s.setLane l ln with
    reports := if left = [] then s.reports ++ [s.note .segmentEnd (some l) none (some g)] else s.reports }

/-- The lane has no live text for a take to close and time (R162). -/
def Lane.noLiveText (ln : Lane) : Prop := ln.builder.openUnit = none ∧ ln.builder.provisional = []

/-- A unit timed at this SFC with this onset finds a free place, and is not so late that it cuts the unit before it (R80,
R82). -/
def State.fitsBehind (s : State) (l : LaneId) (onset : Int) : Prop :=
  (s.lane l).engine.queue.length < 32
    ∧ ∀ x, (s.lane l).engine.record = some x →
      (x.release : Int) + x.minimum
        ≤ max (onset + (s.lane l).params.delay - (s.lane l).params.lead) s.time.sfc + (s.lane l).params.lamMax

/-- The onsets of an AUTO deck (R165): the first is given, and each next one follows by the base minimum of the unit before
it. -/
def onsetsOf (p : Params) (rate : Rate) (first : Nat) (us : List CaptionUnit) (onsets : List Nat) : Prop :=
  onsets.length = us.length ∧ (∀ o ∈ onsets.head?, o = first)
    ∧ ∀ (i : Nat) (u : CaptionUnit) (o v : Nat), us[i]? = some u → onsets[i]? = some o →
      onsets[i + 1]? = some v → v = o + baseMinimum p rate u.count

/-- Units of an AUTO deck timed on a lane that is not behind: each is released at its own onset plus D less A, for its full
reading time (R165, R166). -/
def Lane.atReadingPace (ln : Lane) (rate : Rate) (us : List CaptionUnit) (onsets : List Nat) (ts : List TimedUnit) : Prop :=
  ts.length = min 32 us.length
    ∧ ∀ (i : Nat) (t : TimedUnit), ts[i]? = some t →
      ∃ (u : CaptionUnit) (o : Nat), us[i]? = some u ∧ onsets[i]? = some o
      ∧ t = { unit := { u with onset := some (o : Int) }, base := o + ln.params.delay - ln.params.lead, level := .level0
              minimum := baseMinimum ln.params rate u.count, release := o + ln.params.delay - ln.params.lead
              ref := ln.engine.nextRef + i }

/-! ### Script text and its layout (R141, R158) -/

/-- What a text reads as (R141). -/
inductive ScriptItem where
  | word (t : Text)
  | space
  | brk
  | speaker (i : Nat)
deriving DecidableEq, Repr

/-- The characters '0' to '9' and 'A' to 'F'. -/
def isHexDigit (c : Byte) : Bool :=
  decide (0x30 ≤ c.toNat ∧ c.toNat ≤ 0x39) || decide (0x41 ≤ c.toNat ∧ c.toNat ≤ 0x46)

/-- The characters of an item (R141). -/
def ScriptItem.chars : ScriptItem → Text
  | .word t => t
  | .space => [0x20]
  | .brk => [0x0A]
  | .speaker i => [0x1E, BitVec.ofNat 8 (if i < 10 then 0x30 + i else 0x37 + i)]

/-- No 0x1E of a run of characters begins a speaker code within the run (R141). -/
def holdsNoCode : Text → Bool
  | a :: b :: t => !(decide (a = 0x1E) && isHexDigit b) && holdsNoCode (b :: t)
  | _ => true

/-- An item as R141 reads it: a word is a run of characters that are no separator, no break and no speaker code. -/
def ScriptItem.proper : ScriptItem → Bool
  | .word t => !t.isEmpty && t.all (fun c => decide (c ≠ 0x20 ∧ c ≠ 0x0A)) && holdsNoCode t
  | .speaker i => decide (i ≤ 15)
  | .space => true
  | .brk => true

/-- Words do not meet: characters that meet are one word. -/
def wordsApart : List ScriptItem → Bool
  | [] => true
  | .word _ :: .word _ :: _ => false
  | _ :: rest => wordsApart rest

/-- The text of a page: its 96 characters up to the first 0x00 (R141). -/
def Store.textOfPage (x : Store) (page : Nat) : Text :=
  ((List.range 96).map fun i => x.text.read (96 * page + i)).takeWhile fun c => decide (c ≠ 0)

/-- The text of a segment: the texts of its pages joined end to end (R141). -/
def Store.textOfSegment (x : Store) (g : Segment) : Text :=
  (List.range g.count).flatMap fun i => x.textOfPage (g.first + i)

/-- The words that a word of the text is laid as (R158): pieces of 24 characters, ATTACH on every piece after the first,
with '?' for a character outside 0x21 to 0x7E. -/
def scriptPieces (t : Text) : List CapWord :=
  (List.range ((t.length + 23) / 24)).map fun i =>
    { text := ((t.drop (24 * i)).take 24).map fun c => if 0x21 ≤ c.toNat ∧ c.toNat ≤ 0x7E then c else 0x3F
      attach := decide (i ≠ 0) }

/-- A layout part-way through a text (R158). -/
structure Laying where
  current : Option CaptionUnit
  closed : List CaptionUnit
  style : Nat
  labelDue : Bool
  limited : List Nat
deriving DecidableEq, Repr

/-- The unit being laid out, if any, closes with a cause (R158). -/
def Laying.close (y : Laying) (cause : CloseCause) : Laying :=
  { y with current := none, closed := y.closed ++ (y.current.map fun u => { u with closeCause := some cause }).toList }

/-- A word, or a piece of one, is laid (R158, R52, R53). -/
def Laying.word (s : State) (l : LaneId) (segment : Nat) (y : Laying) (w : CapWord) : Laying :=
  let p := (s.lane l).params
  let create (y : Laying) : Laying :=
    let laid := p.begun y.labelDue (s.styleEntry y.style).label w.text
    { y with
      current := some
        { lane := l, lines := laid.1, words := [w], style := (s.styleEntry y.style).style, label := laid.2
          origin := .script segment, firstArrival := none, onset := none, closeFrame := none, closeCause := none
          cut := false }
      labelDue := false }
  match y.current with
  | none => create y
  | some u =>
    match p.placed u.lines w with
    | some lines => { y with current := some { u with lines := lines, words := u.words ++ [w] } }
    | none => create (y.close .full)

/-- One item of the text is laid out (R158). -/
def Laying.item (s : State) (l : LaneId) (segment : Nat) (y : Laying) : ScriptItem → Laying
  | .word t => (scriptPieces t).foldl (Laying.word s l segment) y
  | .space => y
  | .brk => y.close .brk
  | .speaker i =>
    { y.close .speaker with
      style := if i < s.styleLimit then i else 0, labelDue := true
      limited := if i < s.styleLimit then y.limited else y.limited ++ [i] }

/-- The layout of a text (R158): the units in the order they close, and the indices that met the style limit. -/
def State.layingOf (s : State) (l : LaneId) (segment : Nat) (items : List ScriptItem) : Laying :=
  (items.foldl (Laying.item s l segment)
    { current := none, closed := [], style := 0, labelDue := false, limited := [] }).close .brk

/-- The cue rows, each with its kind byte and its kind (R182). -/
def cueTable : List (Byte × CueKind × (Bool → List Byte → Instr)) :=
  [(1, .freeze, .freeze), (2, .thaw, .thaw), (3, .hold, .hold), (4, .step, .stepCue), (5, .resume, .resume),
    (6, .clear, .clear), (7, .split, .split), (8, .join, .join), (9, .take, .takeCue), (10, .advance, .advance),
    (11, .finish, .endCue)]

/-- The request rows of link A, each with its kind (R183). -/
def requestTable : List (Byte × (List Byte → Instr)) :=
  [(0x20, .configureLane), (0x21, .configureWriter), (0x22, .setStyle), (0x23, .setStyleLimit), (0x24, .setFrameRate),
    (0x25, .setSupervision), (0x26, .assign), (0x27, .handover), (0x28, .start), (0x29, .stop), (0x2A, .loadBuffer),
    (0x2B, .commit), (0x2C, .compare), (0x2D, .defineSegment), (0x2E, .deleteSegment), (0x2F, .prepare),
    (0x30, .storeReset), (0x31, .cancelCue), (0x32, .release), (0x33, .poll), (0x34, .status), (0x35, .clearCounters),
    (0x36, .engineReset)]

end Sys2Proof.Machine
end

