-- ==== Sys2Proof/WellFormed.lean ====
section
/-! DEFINITION. Which commands the part's inputs can give: what a frame can carry, and what each row of the table stands for
(R21, R172 to R177, R184). The operands are the model's (log entry 2); `exec` gives every command a meaning, well-formed or
not. -/

namespace Sys2Proof

open Sys2Proof.Machine

/-- R172, R182: a payload of at most 240 bytes. -/
def payloadFits (p : List Byte) : Bool := decide (p.length ≤ Config.payloadMax)

/-- A CUE frame's payload after its cue-kind byte. -/
def restFits (rest : List Byte) : Bool := decide (rest.length + 1 ≤ Config.payloadMax)

/-- R21, R182: one of the six kinds of a writer message. -/
def isWriterKind (kind : Byte) : Bool :=
  decide (kind = wordKind ∨ kind = breakKind ∨ kind = speakerKind ∨ kind = deleteKind ∨ kind = takeKind
    ∨ kind = queryKind)

/-- R184: CUE or a request kind from 0x20 to 0x36. -/
def isAutomationKind (kind : Byte) : Bool :=
  decide (kind = cueFrameKind) || decide (0x20 ≤ kind.toNat ∧ kind.toNat ≤ 0x36)

/-- The line bytes begin with a flag that a receiver between frames takes. -/
def startsWithFlag : List LineByte → Bool
  | [] => false
  | b :: _ => b.stop && decide (b.value = flagByte)

/-- What a receiver between frames makes of some line bytes that begin with a flag. -/
def lineEvents (line : List LineByte) : List RxEvent :=
  if startsWithFlag line then (Receiver.hunting.run line).2 else []

/-- The address filter takes the frame: its own address on any link, or a broadcast CUE on link A (R176). -/
def takenAt (k : Link) (address kind : Byte) (partAddress : Byte) : Bool :=
  decide (address = partAddress)
    || (decide (address = broadcastAddress) && decide (k = .automation) && decide (kind = cueFrameKind))

/-- The line bytes carry one frame with a matching check that a part with this address does not take (R176): a broadcast
frame that is not a cue on link A, or a frame with an address other than the part's. -/
def isIgnoredLine (k : Link) (line : List LineByte) (partAddress : Byte) : Bool :=
  match lineEvents line with
  | [.frame address kind _] => !takenAt k address kind partAddress
  | _ => false

/-- A command is one its row of the table stands for, at a part with this address. -/
def Instr.wellFormed (partAddress : Byte) : Instr → Bool
  | .powerOn _ => true
  | .pulseArrival _ => true
  | .pulseSupervisionExpiry => true
  | .internalGeneratorExpiry => true
  | .sameFrameWindowClose => true
  | .flushTimerExpiry _ => true
  | .correctionWindowExpiry _ => true
  | .cueScheduleDue => true
  | .automationSupervisionExpiry => true
  | .word _ p => payloadFits p
  | .speaker _ p => payloadFits p
  | .delete _ p => payloadFits p
  | .writerTake _ p => payloadFits p
  | .query _ p => payloadFits p
  | .writerFrameRefused _ kind p => payloadFits p && !isWriterKind kind
  | .handover p => payloadFits p
  | .inserterRequest _ p => decide (p.length = 4)
  | .inserterFrameRefused _ kind p => payloadFits p && decide (kind ≠ inserterRequestKind ∨ p.length ≠ 4)
  | .configureLane p => payloadFits p
  | .configureWriter p => payloadFits p
  | .setStyle p => payloadFits p
  | .setStyleLimit p => payloadFits p
  | .setFrameRate p => payloadFits p
  | .setSupervision p => payloadFits p
  | .assign p => payloadFits p
  | .start p => payloadFits p
  | .stop p => payloadFits p
  | .loadBuffer p => payloadFits p
  | .commit p => payloadFits p
  | .commitCompletion => true
  | .compare p => payloadFits p
  | .compareCompletion => true
  | .defineSegment p => payloadFits p
  | .deleteSegment p => payloadFits p
  | .prepare p => payloadFits p
  | .prepareCompletion => true
  | .storeReset p => payloadFits p
  | .cancelCue p => payloadFits p
  | .release p => payloadFits p
  | .poll p => payloadFits p
  | .status p => payloadFits p
  | .clearCounters p => payloadFits p
  | .engineReset p => payloadFits p
  | .automationFrameRefused kind p => payloadFits p && !isAutomationKind kind
  | .freeze _ rest => restFits rest
  | .thaw _ rest => restFits rest
  | .hold _ rest => restFits rest
  | .resume _ rest => restFits rest
  | .stepCue _ rest => restFits rest
  | .clear _ rest => restFits rest
  | .join _ rest => restFits rest
  | .split _ rest => restFits rest
  | .takeCue _ rest => restFits rest
  | .advance _ rest => restFits rest
  | .endCue _ rest => restFits rest
  | .transmitFrame _ => true
  | .abort _ line => decide (lineEvents line = [.abort])
  | .checkError _ line => decide (lineEvents line = [.checkError])
  | .sizeError _ line => decide (lineEvents line = [.sizeError])
  | .frameIgnored k line => isIgnoredLine k line partAddress
  | .breakMark _ p => payloadFits p
  | .flagArrival _ => true

end Sys2Proof
end

