-- ==== Sys2Proof/Certificates/Slice0/Obligations.lean ====
section
/-! DEFINITION. The statements for the provers. OBLIGATIONS.json says of each what it states and which rules it rests on. -/

open Sys2Proof Sys2Proof.Machine

/-! ## The machine as a whole -/

/-- A step takes the command at the front of the queue and runs it on the part with the queue's rest. The queue is the
model's (log entry 20). -/
def Obligations.StepRunsFrontCommand : Prop :=
  ∀ (c : Instr) (rest : List Instr) (s : State), s.pending = c :: rest →
    step s = exec c { s with pending := rest }

/-- Every command has a next state, and leaves the queue of waiting commands alone. The queue is the model's (log
entries 11 and 20). -/
def Obligations.CommandsKeepQueue : Prop :=
  ∀ (c : Instr) (s : State), ∃ t, exec c s = .next t ∧ t.pending = s.pending

/-- POWER_ON gives every block its power-on values, the lane parameters their defaults and the style table its entries, with
the part address read from the straps. The queue of waiting commands and `nextRef` are the model's (log entries 11 and 4).
-/
def Obligations.PowerOnValues : Prop :=
  ∀ (straps : BitVec 4) (s : State), ∃ t, exec (.powerOn straps) s = .next t
    ∧ t.pending = s.pending ∧ t.partAddress = 1 + straps.toNat
    ∧ t.time =
        { sfc := 0, fod := 0, rate := .r25, source := .internal, supervision := false, generator := true, window := false
          lock := .search, candidate := none, misses := 0 }
    ∧ (∀ w, t.writer w =
        { role := .idle, lag := 50, staging := [], marks := { brk := false, speaker := none }, overflowReported := false
          overflows := 0 })
    ∧ (∀ l, (t.lane l).state = .stopped ∧ (t.lane l).source = .live ∧ (t.lane l).frozen = false
        ∧ (t.lane l).held = false ∧ (t.lane l).builder = emptyBuilder 0 false ∧ (t.lane l).engine = emptyEngine 0
        ∧ (t.lane l).display = displayReset 0 ∧ (t.lane l).deck = bareDeck .empty none
        ∧ (t.lane l).counters =
          { released := 0, cut := 0, stale := 0, discarded := 0, suppressed := 0, overlap := 0, late := 0 }
        ∧ (t.lane l).params =
          { mode := .block, width := 32, rows := 2, readingRate := 15, hMin := 38, hMax := 150, hFloor := 20, hClear := 250
            lead := 5, delay := 0, correction := 10, flush := 75, lam1 := 25, lam2 := 75, lamMax := 150, stale := 500
            group := laneNumber l + 1, reply := .changeOnly, pacing := .stepped, align := false })
    ∧ (∀ i, i < 16 → t.styles[i]? = some
        { style := { colour := .white, alignment := .left, italic := false }, label := if i = 1 then [0x3E, 0x3E] else [] })
    ∧ t.following = false ∧ t.followedSerial = none ∧ t.followedStatus = none ∧ t.schedule = [] ∧ t.supervisionInterval = 0 ∧ t.supervisionExpiry = none
    ∧ t.styleLimit = 2 ∧ t.reports = [] ∧ t.reportOverflow = false
    ∧ (∀ p, t.store.page p = .empty) ∧ (∀ a, t.store.text.read a = 0) ∧ (∀ g, t.store.segment g = none)
    ∧ (∀ b a, (t.store.buffer b).locked = false ∧ (t.store.buffer b).chars.read a = 0)
    ∧ t.store.engine = .idle ∧ t.store.lastCompare = none
    ∧ ∀ k, (t.link k).rx.mode = .hunting ∧ (t.link k).waiting = [] ∧ (t.link k).good = 0 ∧ (t.link k).checks = 0
        ∧ (t.link k).aborts = 0 ∧ (t.link k).sizes = 0

/-- Every command but POWER_ON holds the part address, and, below the count's limit, leaves SFC or raises it by one,
which only the three commands that produce frame events do. -/
def Obligations.AddressAndStationCount : Prop :=
  ∀ (c : Instr) (s t : State), (∀ straps, c ≠ .powerOn straps) → s.time.sfc + 1 < 2 ^ 48 → exec c s = .next t →
    t.partAddress = s.partAddress
    ∧ (t.time.sfc = s.time.sfc
      ∨ (t.time.sfc = s.time.sfc + 1
        ∧ (c = .internalGeneratorExpiry ∨ c = .pulseSupervisionExpiry ∨ ∃ w, c = .pulseArrival w)))

/-- The characters of the pages change at the completion of a COMMIT and at power-on alone. -/
def Obligations.PagesChangeOnlyAtCommitCompletion : Prop :=
  ∀ (c : Instr) (s t : State), (∀ straps, c ≠ .powerOn straps) → c ≠ .commitCompletion → exec c s = .next t →
    t.store.text = s.store.text

/-! ## Laws that every step keeps -/

/-- The law of capacities, with the order of the cue schedule. -/
def Obligations.CapacitiesAreKept : Prop :=
  ∀ (s t : State), s.withinCapacity → step s = .next t → t.withinCapacity

/-- Counters stay 16 bits, and the parameters stay in their ranges. -/
def Obligations.NumbersStayInRange : Prop :=
  ∀ (s t : State), s.countersWithin ∧ s.paramsInRange → step s = .next t → t.countersWithin ∧ t.paramsInRange

/-- The law of roles. -/
def Obligations.RolesStayLawful : Prop :=
  ∀ (s t : State), s.rolesLawful → step s = .next t → t.rolesLawful

/-- The law of the frame of day, and the shape of the time base's state. -/
def Obligations.TimeBaseStaysLawful : Prop :=
  ∀ (s t : State), s.time.lawful → step s = .next t → t.time.lawful

/-- Release frames rise along the units waiting for release, a lane without a record has none waiting, and every unit of a
builder holds a word. -/
def Obligations.TimelinesStayLawful : Prop :=
  ∀ (s t : State), s.timelinesLawful → step s = .next t → t.timelinesLawful

/-- The store's locks, page states and decks in preparation agree with its engine. -/
def Obligations.StoreStaysLawful : Prop :=
  ∀ (s t : State), s.storeLawful → step s = .next t → t.storeLawful

/-- The six laws hold right after power-on, whatever the straps, and so at reset. -/
def Obligations.LawsHoldAtPowerOn : Prop :=
  (∀ (straps : BitVec 4), (State.powerOn straps).withinCapacity ∧ (State.powerOn straps).countersWithin
    ∧ (State.powerOn straps).paramsInRange ∧ (State.powerOn straps).rolesLawful
    ∧ (State.powerOn straps).time.lawful ∧ (State.powerOn straps).timelinesLawful
    ∧ (State.powerOn straps).storeLawful)
  ∧ State.reset.withinCapacity ∧ State.reset.countersWithin ∧ State.reset.paramsInRange ∧ State.reset.rolesLawful
    ∧ State.reset.time.lawful ∧ State.reset.timelinesLawful ∧ State.reset.storeLawful

/-! ## Frames on the line -/

/-- A receiver between frames that takes the line bytes of a frame with at most 240 payload bytes finds exactly that
frame, whatever its address, kind and payload, and then stands between frames. -/
def Obligations.LineFrameRoundTrip : Prop :=
  ∀ (r : Receiver) (address kind : Byte) (payload : List Byte), r.betweenFrames = true → payload.length ≤ 240 →
    r.run (onLine (lineFrame address kind payload)) = (Receiver.inFrame, [.frame address kind payload])

/-- The rows that stand for good frames agree with the receiver: taking the line bytes of a frame addressed to the part
is the row's command; a cue row also stands for the broadcast frame of its cue. The rows' operands are the model's (log
entry 2), and so is that a cue row carries the rest of its frame after the kind byte (log entry 24). -/
def Obligations.RowsAgreeWithLine : Prop :=
  ∀ (s : State) (kind : Byte) (p : List Byte), p.length ≤ 240 →
    (∀ w, (s.link (.writer w)).rx.betweenFrames = true →
      exec (.word w p) s = .next (s.receive (.writer w) (onLine (lineFrame s.addressByte 0x10 p)))
      ∧ exec (.breakMark w p) s = .next (s.receive (.writer w) (onLine (lineFrame s.addressByte 0x11 p)))
      ∧ exec (.speaker w p) s = .next (s.receive (.writer w) (onLine (lineFrame s.addressByte 0x12 p)))
      ∧ exec (.delete w p) s = .next (s.receive (.writer w) (onLine (lineFrame s.addressByte 0x13 p)))
      ∧ exec (.writerTake w p) s = .next (s.receive (.writer w) (onLine (lineFrame s.addressByte 0x14 p)))
      ∧ exec (.query w p) s = .next (s.receive (.writer w) (onLine (lineFrame s.addressByte 0x15 p)))
      ∧ exec (.writerFrameRefused w kind p) s
        = .next (s.receive (.writer w) (onLine (lineFrame s.addressByte kind p))))
    ∧ (∀ l, (s.link (.inserter l)).rx.betweenFrames = true →
      exec (.inserterRequest l p) s = .next (s.receive (.inserter l) (onLine (lineFrame s.addressByte 0x60 p)))
      ∧ exec (.inserterFrameRefused l kind p) s
        = .next (s.receive (.inserter l) (onLine (lineFrame s.addressByte kind p))))
    ∧ ((s.link .automation).rx.betweenFrames = true →
      exec (.automationFrameRefused kind p) s
        = .next (s.receive .automation (onLine (lineFrame s.addressByte kind p)))
      ∧ (∀ e ∈ requestTable,
        exec (e.2 p) s = .next (s.receive .automation (onLine (lineFrame s.addressByte e.1 p))))
      ∧ (p.length ≤ 239 → ∀ e ∈ cueTable,
        exec (e.2.2 false p) s = .next (s.receive .automation (onLine (lineFrame s.addressByte 0x40 (e.1 :: p))))
        ∧ (s.addressByte ≠ 0xFF →
          exec (e.2.2 true p) s = .next (s.receive .automation (onLine (lineFrame 0xFF 0x40 (e.1 :: p)))))))

/-- The transmitter sends the frame that has waited longest, with the part address, and keeps the others in order. The
`line` port is the model's (log entry 5). -/
def Obligations.TransmitSendsEarliestFrame : Prop :=
  ∀ (s : State) (k : Link) (f : TxFrame) (rest : List TxFrame), (s.link k).waiting = f :: rest →
    1 ≤ s.partAddress → s.partAddress ≤ 16 → f.payload.length ≤ 240 →
    ∃ t, exec (.transmitFrame k) s = .next t
      ∧ t = s.setLink k { s.link k with waiting := rest, line := (t.link k).line }
      ∧ (Receiver.hunting.run (onLine (t.link k).line)).2
        = [.frame (BitVec.ofNat 8 s.partAddress) f.kind f.payload]

/-- What ends a frame without delivering it: an abort, a failed check, a frame too short, a frame too long, and a frame
for another part are each counted where the spec counts them and change nothing else but the receiver; a flag between
frames is counted nowhere. -/
def Obligations.UndeliveredFramesAreOnlyCounted : Prop :=
  ∀ (s : State) (k : Link) (body : List Byte), (s.link k).rx.betweenFrames = true →
    (body.length ≤ 244 →
      exec (.abort k (onLine (0xE7 :: stuff body ++ [0xE8, 0xE7]))) s
        = .next (s.setLink k { s.link k with
            rx := Receiver.inFrame, aborts := min ((s.link k).aborts + 1) 65535 }))
    ∧ (4 ≤ body.length → body.length ≤ 244 →
        body.drop (body.length - 2) ≠ checkBytes (crc (body.take (body.length - 2))) →
      exec (.checkError k (onLine (0xE7 :: stuff body ++ [0xE7]))) s
        = .next (s.setLink k { s.link k with
            rx := Receiver.inFrame, checks := min ((s.link k).checks + 1) 65535 }))
    ∧ (1 ≤ body.length → body.length ≤ 3 →
      exec (.sizeError k (onLine (0xE7 :: stuff body ++ [0xE7]))) s
        = .next (s.setLink k { s.link k with
            rx := Receiver.inFrame, sizes := min ((s.link k).sizes + 1) 65535 }))
    ∧ (244 < body.length →
      exec (.sizeError k (onLine (0xE7 :: stuff body ++ [0xE7]))) s
        = .next (s.setLink k { s.link k with
            rx := Receiver.inFrame, sizes := min ((s.link k).sizes + 1) 65535 }))
    ∧ (∀ (address kind : Byte) (payload : List Byte), payload.length ≤ 240 → address ≠ BitVec.ofNat 8 s.partAddress →
        (address ≠ 0xFF ∨ k ≠ .automation) →
      exec (.frameIgnored k (onLine (lineFrame address kind payload))) s
        = .next (s.setLink k { s.link k with rx := Receiver.inFrame }))
    ∧ exec (.flagArrival k) s = .next (s.setLink k { s.link k with rx := Receiver.inFrame })

/-! ## The time base -/

/-- An internal frame event advances SFC and FOD by one and evaluates an absent word; it comes from the generator, which
keeps its rhythm, or from pulse supervision, which hands over to the generator. That a frame event leaves the other
blocks to commands of their own is the model's choice (log entry 10). -/
def Obligations.InternalFrameEvents : Prop :=
  ∀ (s : State), s.time.sfc + 1 < 2 ^ 48 →
    (s.time.source = .internal → s.time.generator = true →
      ∃ t, exec .internalGeneratorExpiry s = .next t
        ∧ t.time = { s.time with
            sfc := s.time.sfc + 1, fod := (s.time.fod + 1) % s.time.rate.day, window := true
            lock := t.time.lock, candidate := t.time.candidate, misses := t.time.misses }
        ∧ s.time.unconfirmed t.time
        ∧ t = { s with time := t.time, reports := t.reports, reportOverflow := t.reportOverflow }
        ∧ (¬ (s.time.lock = .locked ∧ 2 ≤ s.time.misses) →
            t.reports = s.reports ∧ t.reportOverflow = s.reportOverflow))
    ∧ (s.time.source = .reference → s.time.supervision = true →
      ∃ t, exec .pulseSupervisionExpiry s = .next t
        ∧ t.time = { s.time with
            sfc := s.time.sfc + 1, fod := (s.time.fod + 1) % s.time.rate.day, source := .internal, supervision := false
            generator := true, window := true
            lock := t.time.lock, candidate := t.time.candidate, misses := t.time.misses }
        ∧ s.time.unconfirmed t.time
        ∧ t = { s with time := t.time, reports := t.reports, reportOverflow := t.reportOverflow }
        ∧ (¬ (s.time.lock = .locked ∧ 2 ≤ s.time.misses) → s.canReport →
            t.reports = s.reports ++ [t.note .pulseLost none none none] ∧ t.reportOverflow = s.reportOverflow))

/-- In SEARCH a valid word of a pulse's frame becomes the candidate and begins the verification. In VERIFY the word confirms
the candidate, replaces it, or ends the verification. That no other block acts at the pulse's frame event is the model's
choice (log entry 10), and so is the form of the word (log entry 21). -/
def Obligations.VerifyJudgesTheWord : Prop :=
  (∀ (s : State) (tc : Option TimecodeWord), s.time.source = .reference → s.time.lock = .search →
    s.time.sfc + 1 < 2 ^ 48 →
    exec (.pulseArrival tc) s = .next
      (let word := tc.bind (fun x => timecodeFrames x s.time.rate)
       { s with time := { s.time with
           sfc := s.time.sfc + 1, fod := (s.time.fod + 1) % s.time.rate.day, supervision := true
           lock := if word.isSome then .verify else .search, candidate := word } }))
  ∧ ∀ (s : State) (tc : Option TimecodeWord) (c : Nat), s.time.source = .reference → s.time.lock = .verify →
    s.time.candidate = some c → s.time.sfc + 1 < 2 ^ 48 → s.canReport →
    (∀ w, tc.bind (fun x => timecodeFrames x s.time.rate) = some w →
      exec (.pulseArrival tc) s = .next
        (if w = (c + 1) % s.time.rate.day then
          { s with
            time := { s.time with sfc := s.time.sfc + 1, fod := w, supervision := true, lock := .locked
                                  candidate := none, misses := 0 }
            reports := s.reports ++ [{ kind := .lockGained, lane := none, writer := none
                                       value := some ((w + s.time.rate.day - (s.time.fod + 1) % s.time.rate.day)
                                         % s.time.rate.day)
                                       stamp := s.time.sfc + 1 }] }
        else
          { s with time := { s.time with
              sfc := s.time.sfc + 1, fod := (s.time.fod + 1) % s.time.rate.day, supervision := true
              candidate := some w } }))
    ∧ (tc.bind (fun x => timecodeFrames x s.time.rate) = none →
      exec (.pulseArrival tc) s = .next
        { s with time := { s.time with
            sfc := s.time.sfc + 1, fod := (s.time.fod + 1) % s.time.rate.day, supervision := true
            lock := .search, candidate := none } })

/-- In LOCKED a word equal to the predicted FOD clears the misses, anything else is a miss, and the third miss in a run
ends the lock with LOCK_LOST. That no other block acts at the pulse's frame event is the model's choice (log entry 10), and
so is the form of the word (log entry 21). -/
def Obligations.LockedCountsMisses : Prop :=
  ∀ (s : State) (tc : Option TimecodeWord), s.time.source = .reference → s.time.lock = .locked →
    s.time.sfc + 1 < 2 ^ 48 → s.time.misses ≤ 2 → s.canReport →
    exec (.pulseArrival tc) s = .next
      (let fod := (s.time.fod + 1) % s.time.rate.day
       let time := { s.time with sfc := s.time.sfc + 1, fod := fod, supervision := true }
       if tc.bind (fun x => timecodeFrames x s.time.rate) = some fod then { s with time := { time with misses := 0 } }
       else if s.time.misses < 2 then { s with time := { time with misses := s.time.misses + 1 } }
       else
         { s with
           time := { time with lock := .search, misses := 0 }
           reports := s.reports ++ [{ kind := .lockLost, lane := none, writer := none, value := some fod
                                      stamp := s.time.sfc + 1 }] })

/-- A pulse inside the same-frame window returns the source to REFERENCE without a frame event; a pulse that finds the window
closed returns it with a frame event of its own, which the lock machine judges; the window's close alone ends the window.
That no other block acts at that frame event is log entry 10, the form of the word log entry 21, that PULSE_RESTORED
comes before LOCK_LOST log entry 12, and the F that judges the word right after a SET-FRAME-RATE log entry 26. -/
def Obligations.SameFrameWindow : Prop :=
  (∀ (s : State) (tc : Option TimecodeWord), s.time.source = .internal → s.time.window = true → s.canReport →
    (s.time.lock = .search ∨ s.time.lock = .locked) →
    exec (.pulseArrival tc) s = .next
      (let word := tc.bind (fun x => timecodeFrames x s.time.rate)
       let time := { s.time with source := .reference, generator := false, supervision := true, window := false }
       { s with
         time :=
           match s.time.lock, word with
           | .search, some w => { time with lock := .verify, candidate := some w }
           | .locked, some w => { time with misses := if w = s.time.fod then 0 else s.time.misses }
           | _, _ => time
         reports := s.reports ++ [s.note .pulseRestored none none none] }))
  ∧ (∀ (s : State) (tc : Option TimecodeWord), s.time.source = .internal → s.time.window = false →
    (s.time.lock = .search ∨ s.time.lock = .locked) → s.time.sfc + 1 < 2 ^ 48 → s.time.misses ≤ 2 →
    s.reports.length ≤ 30 →
    exec (.pulseArrival tc) s = .next
      (let word := tc.bind (fun x => timecodeFrames x s.time.rate)
       let fod := (s.time.fod + 1) % s.time.rate.day
       let report (kind : ReportKind) (value : Option Nat) : Report :=
         { kind := kind, lane := none, writer := none, value := value, stamp := s.time.sfc + 1 }
       let time := { s.time with
         sfc := s.time.sfc + 1, fod := fod, source := .reference, generator := false, supervision := true }
       let restored := { s with time := time, reports := s.reports ++ [report .pulseRestored none] }
       if s.time.lock = .search then
         { restored with time := { time with lock := if word.isSome then .verify else .search, candidate := word } }
       else if word = some fod then { restored with time := { time with misses := 0 } }
       else if s.time.misses < 2 then { restored with time := { time with misses := s.time.misses + 1 } }
       else
         { restored with
           time := { time with lock := .search, misses := 0 }
           reports := s.reports ++ [report .pulseRestored none, report .lockLost (some fod)] }))
  ∧ ∀ s : State, exec .sameFrameWindowClose s = .next { s with time := { s.time with window := false } }

/-! ## The lane builder and the timing engine -/

/-- The flush timer closes the open unit when SFC has reached its expiry, and not before. That the row does nothing
before the expiry is the model's choice (log entry 3). -/
def Obligations.FlushClosesTheUnit : Prop :=
  ∀ (s : State) (l : LaneId) (u : CaptionUnit) (x : Nat), (s.lane l).builder.openUnit = some u →
    (s.lane l).builder.flush = some x → s.closesQuietly l →
    exec (.flushTimerExpiry l) s = .next (if x ≤ s.time.sfc then s.closing s l u .flush else s)

/-- The due provisional unit of a RUNNING lane that is not later than Λmax is timed by R74 to R79 and joins the timed queue;
a queue of 32 first loses its head, which is counted and reported. Where the lane is not FROZEN and its next image not
ready, the head of the queue is then composed: in BLOCK mode its lines fill the bottom rows, in ROLL mode its line stands
below the rows of the air image moved up. `ref` and `nextRef` are the model's (log entry 4). -/
def Obligations.DueUnitIsTimed : Prop :=
  ∀ (s : State) (l : LaneId) (p : Provisional) (left : List Provisional) (on : Int) (w : WriterId),
    (s.lane l).state = .running → (s.lane l).builder.provisional = p :: left → p.windowEnd ≤ s.time.sfc →
    (∀ q ∈ left.head?, s.time.sfc < q.windowEnd) → p.unit.onset = some on → p.unit.origin = .live w →
    (∀ x, (s.lane l).engine.record = some x → (x.release : Int) + x.minimum
      ≤ max (on + (s.lane l).params.delay - (s.lane l).params.lead) s.time.sfc + (s.lane l).params.lamMax) →
    ∃ u : TimedUnit, timedAfter (s.lane l).params s.time.rate s.time.sfc (s.lane l).engine.record p.unit on u
      ∧ ((s.lane l).engine.queue.length < 32 →
        exec (.correctionWindowExpiry l) s
          = .next (s.setLane l (((s.lane l).provisionally left).queueing u).composed))
      ∧ ∀ (h : TimedUnit) (rest : List TimedUnit), (s.lane l).engine.queue = h :: rest →
        (s.lane l).engine.queue.length = 32 → s.canReport →
        exec (.correctionWindowExpiry l) s = .next
          (let kept : Lane := { (s.lane l).provisionally left with
             engine := { (s.lane l).engine with queue := rest }
             counters := { (s.lane l).counters with discarded := min ((s.lane l).counters.discarded + 1) 65535 } }
           { s.setLane l (kept.queueing u).composed with
             reports := s.reports ++ [s.note .queueFullDiscard (some l) h.unit.writer
               (some (min (s.time.sfc - h.release) 4294967295))] })

/-- A unit later than Λmax is released after Λmax at the latest, and cuts the unit before it, once: the mark is set where
that unit stands, in the timed queue, in a ready next image, or in the air image, whose serial then advances and whose
changed flag is set; a unit that stands nowhere is not cut. The new unit then joins the queue and composition follows.
`ref` and `nextRef` are the model's (log entry 4). -/
def Obligations.LateUnitCutsThePrevious : Prop :=
  ∀ (s : State) (l : LaneId) (p : Provisional) (left : List Provisional) (x : LastTimed) (on : Int) (w : WriterId) (b : Nat),
    (s.lane l).state = .running → (s.lane l).builder.provisional = p :: left → p.windowEnd ≤ s.time.sfc →
    (∀ q ∈ left.head?, s.time.sfc < q.windowEnd) → p.unit.onset = some on → p.unit.origin = .live w →
    (s.lane l).engine.record = some x → (s.lane l).engine.queue.length < 32 → s.canReport →
    (b : Int) = max (on + (s.lane l).params.delay - (s.lane l).params.lead) s.time.sfc →
    (s.lane l).params.lamMax < x.release + x.minimum - b →
    ∃ u : TimedUnit, timedAfter (s.lane l).params s.time.rate s.time.sfc (some x) p.unit on u
      ∧ u.release = max (b + (s.lane l).params.lamMax) (x.release + 1)
      ∧ (let ln := (s.lane l).provisionally left
         let d := (s.lane l).display
         let uncut := exec (.correctionWindowExpiry l) s = .next (s.setLane l (ln.queueing u).composed)
         let cuts (v : TimedUnit) (marked : Lane) : Prop :=
           if v.unit.cut = true then uncut
           else exec (.correctionWindowExpiry l) s = .next
             { s.setLane l (marked.countingCut.queueing u).composed with
               reports := s.reports
                 ++ [s.note .unitCut (some l) v.unit.writer (some (x.release + x.minimum - u.release))] }
         let notInNext := d.nextReady = true → d.next.isNot x
         (∀ (before after : List TimedUnit) (v : TimedUnit), (s.lane l).engine.queue = before ++ v :: after →
           v.ref = x.ref → noneIs (before ++ after) x → notInNext → d.air.isNot x →
           cuts v { ln with engine := { ln.engine with queue := before ++ v.withCut :: after } })
         ∧ (∀ v, d.nextReady = true → d.next.unit = some v → v.ref = x.ref → noneIs (s.lane l).engine.queue x →
           d.air.isNot x →
           cuts v { ln with display := { d with next := d.next.withCut v } })
         ∧ (∀ v, d.air.unit = some v → v.ref = x.ref → noneIs (s.lane l).engine.queue x → notInNext →
           cuts v { ln with display := d.airCut v })
         ∧ (noneIs (s.lane l).engine.queue x → notInNext → d.air.isNot x → uncut))

/-! ## Writer messages -/

/-- A word of the on-air writer creates a unit when none is open, with the label that is due and fits; otherwise it
joins the current line where it fits, or begins a new line, or closes the full unit and creates the next. -/
def Obligations.WordIsLaid : Prop :=
  ∀ (s : State) (w : WriterId) (l : LaneId) (flags : Byte) (text : Text) (e : StyleEntry), s.typesOn w l →
    1 ≤ text.length → text.length ≤ 24 → (∀ c ∈ text, 0x21 ≤ c.toNat ∧ c.toNat ≤ 0x7E) →
    s.styles[(s.lane l).builder.style]? = some e →
    ((s.lane l).builder.openUnit = none →
      exec (.word w (flags :: text)) s = .next ((s.messaged w).setLane l { s.lane l with
        builder := s.afterWord l text (s.begunUnit l w e { text := text, attach := flags.getLsbD 0 })
          (s.lane l).builder.provisional false }))
    ∧ (∀ (u : CaptionUnit) (done : List Text) (current : Text), (s.lane l).builder.openUnit = some u →
      u.lines = done ++ [current] → current ≠ [] →
      (current.length + (if flags.getLsbD 0 then 0 else 1) + text.length ≤ (s.lane l).params.width →
        exec (.word w (flags :: text)) s = .next ((s.messaged w).setLane l { s.lane l with
          builder := s.afterWord l text
            { u with
              lines := done ++ [current ++ (if flags.getLsbD 0 then [] else [0x20]) ++ text]
              words := u.words ++ [{ text := text, attach := flags.getLsbD 0 }] }
            (s.lane l).builder.provisional (s.lane l).builder.pendingLabel }))
      ∧ ((s.lane l).params.width < current.length + (if flags.getLsbD 0 then 0 else 1) + text.length →
        (done.length + 1 < (match (s.lane l).params.mode with | .block => (s.lane l).params.rows | .roll => 1) →
          exec (.word w (flags :: text)) s = .next ((s.messaged w).setLane l { s.lane l with
            builder := s.afterWord l text
              { u with
                lines := done ++ [current] ++ [text]
                words := u.words ++ [{ text := text, attach := flags.getLsbD 0 }] }
              (s.lane l).builder.provisional (s.lane l).builder.pendingLabel }))
        ∧ ((match (s.lane l).params.mode with | .block => (s.lane l).params.rows | .roll => 1) ≤ done.length + 1 →
          s.closesQuietly l →
          exec (.word w (flags :: text)) s = .next ((s.messaged w).setLane l { s.lane l with
            builder := s.afterWord l text (s.begunUnit l w e { text := text, attach := flags.getLsbD 0 })
              ((s.lane l).builder.provisional ++ [s.closedUnit l u .full]) false }))))

/-- A standby writer's BREAK and SPEAKER set its pending marks; its word is staged in its substituted form with those
marks, and reaches no lane. A 65th word pushes out the oldest entry, whose marks are folded onto the entry that has become
oldest; the loss is counted, and reported once until the list is empty. That SUBSTITUTED comes before STAGING_OVERFLOW is
log entry 12. -/
def Obligations.StandbyMessagesAreStaged : Prop :=
  ∀ (s : State) (w : WriterId) (l : LaneId), (s.writer w).role = .standby l →
    exec (.breakMark w []) s = .next ((s.messaged w).setWriter w { s.writer w with
      marks := { brk := true, speaker := (s.writer w).marks.speaker } })
    ∧ (∀ i : Byte, exec (.speaker w [i]) s = .next ((s.messaged w).setWriter w { s.writer w with
      marks := { brk := (s.writer w).marks.brk, speaker := some i } }))
    ∧ ∀ (flags : Byte) (text : Text), 1 ≤ text.length → text.length ≤ 24 →
      let entry : Staged :=
        { text := text.map fun c => if 0x21 ≤ c.toNat ∧ c.toNat ≤ 0x7E then c else 0x3F
          attach := flags.getLsbD 0, arrival := s.time.sfc, marks := (s.writer w).marks }
      let replaced := (text.filter fun c => decide (¬ (0x21 ≤ c.toNat ∧ c.toNat ≤ 0x7E))).length
      let substituted :=
        if replaced = 0 then [] else [s.note .substituted (some l) (some w) (some replaced)]
      ((s.writer w).staging.length < 64 → s.canReport →
        exec (.word w (flags :: text)) s = .next
          { (s.messaged w).setWriter w { s.writer w with
              staging := (s.writer w).staging ++ [entry], marks := { brk := false, speaker := none } } with
            reports := s.reports ++ substituted })
      ∧ ∀ (lost oldest : Staged) (rest : List Staged), (s.writer w).staging = lost :: oldest :: rest →
        (s.writer w).staging.length = 64 → s.reports.length ≤ 30 →
        exec (.word w (flags :: text)) s = .next
          { (s.messaged w).setWriter w { s.writer w with
              staging := { oldest with marks := foldedMarks [lost.marks, oldest.marks] } :: rest ++ [entry]
              marks := { brk := false, speaker := none }
              overflows := min ((s.writer w).overflows + 1) 65535
              overflowReported := true } with
            reports := s.reports ++ substituted
              ++ if (s.writer w).overflowReported = true then []
                 else [s.note .stagingOverflow (some l) (some w) (some (min ((s.writer w).overflows + 1) 65535))] }

/-- On a lane whose source is SCRIPT, and on lane 1 while FOLLOWING, the on-air writer's words are counted and its other
messages discarded. That a DELETE after a TAKE is among them while the deck plays, with no LATE_CORRECTION, is log entry 27.
-/
def Obligations.OnAirMessagesAreSuppressed : Prop :=
  ∀ (s : State) (w : WriterId) (l : LaneId), (s.writer w).role = .onAir l → (s.lane l).state = .running →
    ((s.lane l).source = .script ∨ (l = .lane1 ∧ s.following = true)) →
    (∀ (flags : Byte) (text : Text), 1 ≤ text.length → text.length ≤ 24 →
      exec (.word w (flags :: text)) s = .next ((s.messaged w).setLane l { s.lane l with
        counters := { (s.lane l).counters with suppressed := min ((s.lane l).counters.suppressed + 1) 65535 } }))
    ∧ exec (.breakMark w []) s = .next (s.messaged w)
    ∧ (∀ i : Byte, exec (.speaker w [i]) s = .next (s.messaged w))
    ∧ ∀ n : Byte, n ≠ 0 → exec (.delete w [n]) s = .next (s.messaged w)

/-- A BREAK of the on-air writer closes the open unit with cause BREAK; a SPEAKER closes it with cause SPEAKER, sets the
style by the style limit and sets the pending-label flag. A unit that closes onto a full provisional list first forces the
head out: the head is timed at the close, and PROVISIONAL_OVERFLOW carries the frames cut from its window. That a head whose
window ends at this very SFC is reported with 1 is log entry 8; `ref` and `nextRef` are the model's (log entry 4). -/
def Obligations.BreakAndSpeaker : Prop :=
  (∀ (s : State) (w : WriterId) (l : LaneId), s.typesOn w l → s.closesQuietly l →
    (∀ u, (s.lane l).builder.openUnit = some u →
      exec (.breakMark w []) s = .next (s.closing (s.messaged w) l u .brk))
    ∧ ((s.lane l).builder.openUnit = none → exec (.breakMark w []) s = .next (s.messaged w))
    ∧ ∀ i : Byte, s.canReport →
      exec (.speaker w [i]) s = .next
        (let closed := match (s.lane l).builder.openUnit with
           | none => (s.lane l).builder
           | some u => { (s.lane l).builder with
               openUnit := none, flush := none
               provisional := (s.lane l).builder.provisional ++ [s.closedUnit l u .speaker] }
         if i.toNat < s.styleLimit then
           (s.messaged w).setLane l { s.lane l with
             builder := { closed with style := i.toNat, pendingLabel := true } }
         else
           { (s.messaged w).setLane l { s.lane l with builder := { closed with style := 0, pendingLabel := true } } with
             reports := s.reports ++ [s.note .styleLimit (some l) (some w) (some i.toNat)] }))
  ∧ ∀ (s : State) (w : WriterId) (l : LaneId) (u : CaptionUnit) (head : Provisional) (left : List Provisional) (on : Int)
      (v : WriterId), s.typesOn w l → (s.lane l).builder.openUnit = some u →
    (s.lane l).builder.provisional = head :: left → (s.lane l).builder.provisional.length = 4 →
    (∀ q ∈ left.head?, s.time.sfc < q.windowEnd) → 0 < (s.lane l).params.correction →
    head.unit.onset = some on → head.unit.origin = .live v → s.fitsBehind l on → s.canReport →
    ∃ t : TimedUnit, timedAfter (s.lane l).params s.time.rate s.time.sfc (s.lane l).engine.record head.unit on t
      ∧ exec (.breakMark w []) s = .next
        { (s.messaged w).setLane l
            (({ s.lane l with builder := { (s.lane l).builder with
                openUnit := none, flush := none, provisional := left ++ [s.closedUnit l u .brk] } } : Lane).queueing
              t).composed with
          reports := s.reports ++ [s.note .provisionalOverflow (some l) head.unit.writer
            (some (max 1 (head.windowEnd - s.time.sfc)))] }

/-- A DELETE of the on-air writer takes words from the end of the lane: of the open unit, then of the provisional units from
the newest back. A unit that keeps words is shortened and laid out again; one that keeps none is removed, and if it had a
label the label is due again. The same number of entries leaves the recent-word window. What lies out of reach is counted
and reported as late. A count above 16 is taken as 16. -/
def Obligations.OnAirDelete : Prop :=
  ∀ (s : State) (w : WriterId) (l : LaneId) (n : Byte), s.typesOn w l → n ≠ 0 → (s.lane l).builder.unitsHoldWords →
    let b := (s.lane l).builder
    let m := min n.toNat 16
    let leaves (after : Builder) : Host.Outcome State Fault Refusal :=
      .next ((s.messaged w).setLane l { s.lane l with builder := after })
    (∀ (u : CaptionUnit) (ws gone : List CapWord), b.openUnit = some u → u.words = ws ++ gone → ws ≠ [] →
      gone.length = m →
      exec (.delete w [n]) s = leaves { b with
        openUnit := some (u.shortenedTo (s.lane l).params ws), recent := b.recent.take (b.recent.length - m) })
    ∧ (∀ (before gone : List Provisional) (q : Provisional) (ws taken : List CapWord),
      b.provisional = before ++ q :: gone → q.unit.words = ws ++ taken → ws ≠ [] → taken ≠ [] →
      wordsOf (b.reached gone) + taken.length = m →
      exec (.delete w [n]) s = leaves (b.withoutUnits gone
        (before ++ [{ q with unit := q.unit.shortenedTo (s.lane l).params ws }]) m))
    ∧ (∀ before gone : List Provisional, b.provisional = before ++ gone → wordsOf (b.reached gone) = m →
      exec (.delete w [n]) s = leaves (b.withoutUnits gone before m))
    ∧ (wordsOf (b.reached b.provisional) < m → s.canReport →
      exec (.delete w [n]) s = .next
        (let removed := wordsOf (b.reached b.provisional)
         { (s.messaged w).setLane l { s.lane l with
             builder := b.withoutUnits b.provisional [] removed
             counters := { (s.lane l).counters with late := min ((s.lane l).counters.late + (m - removed)) 65535 } } with
           reports := s.reports ++ [s.note .lateCorrection (some l) (some w) (some (m - removed))] }))

/-- A DELETE of a standby writer takes the last n staged entries and keeps their marks, folded with the pending marks.
-/
def Obligations.StagedDelete : Prop :=
  ∀ (s : State) (w : WriterId) (l : LaneId) (n : Byte), (s.writer w).role = .standby l → n ≠ 0 →
    exec (.delete w [n]) s = .next (
      let staged := (s.writer w).staging
      let kept := staged.take (staged.length - min n.toNat 16)
      let gone := staged.drop (staged.length - min n.toNat 16)
      if staged = [] then s.messaged w
      else (s.messaged w).setWriter w { s.writer w with
        staging := kept
        marks :=
          { brk := gone.any (fun e => e.marks.brk) || (s.writer w).marks.brk
            speaker := ((gone.map fun e => e.marks.speaker) ++ [(s.writer w).marks.speaker]).foldl
              (fun older newer => newer.or older) none }
        overflowReported := if kept = [] then false else (s.writer w).overflowReported })

/-- A TAKE of the standby writer of a STOPPED lane exchanges the roles, empties both staging lists, tells both writers
and reports the handover with overlap 0. -/
def Obligations.TakeExchangesRoles : Prop :=
  ∀ (s : State) (w v : WriterId) (l : LaneId), (s.writer w).role = .standby l → (s.lane l).state = .stopped →
    (∀ u, (s.writer u).role = .onAir l ↔ u = v) → s.canReport →
    ∃ t, exec (.writerTake w []) s = .next t
      ∧ t = { s with writers := t.writers, links := t.links
                     reports := s.reports ++ [s.note .handover (some l) (some w) (some 0)] }
      ∧ t.writer w = { s.writer w with
          role := .onAir l, staging := [], marks := { brk := false, speaker := none }, overflowReported := false }
      ∧ t.writer v = { s.writer v with
          role := .standby l, staging := [], marks := { brk := false, speaker := none }, overflowReported := false }
      ∧ (∀ u, u ≠ w → u ≠ v → t.writer u = s.writer u)
      ∧ (∀ k, k ≠ .writer w → k ≠ .writer v → t.link k = s.link k)
      ∧ t.link (.writer w) = { s.link (.writer w) with
          rx := Receiver.inFrame, good := min ((s.link (.writer w)).good + 1) 65535
          waiting := (s.link (.writer w)).waiting.filter (fun f => decide (f.kind ≠ 0x18))
            ++ [roleFrame w (t.writer w)] }
      ∧ t.link (.writer v) = { s.link (.writer v) with
          waiting := (s.link (.writer v)).waiting.filter (fun f => decide (f.kind ≠ 0x18))
            ++ [roleFrame v (t.writer v)] }

/-- A HANDOVER on a RUNNING lane closes the open unit, drops the staged words that repeat the end of the lane, replays the
others with their marks onto the lane (or, where the lane suppresses its messages, only counts them), and exchanges the
roles; with no outgoing writer nothing overlaps. A WRITER_TAKE of the lane's standby writer does the same. -/
def Obligations.HandoverDropsTheOverlap : Prop :=
  (∀ (s : State) (w : WriterId) (l : LaneId) (outgoing : Option WriterId) (k : Nat) (suppressed : Bool),
    (s.lane l).state = .running →
    (∀ u, (s.writer u).role = .standby l ↔ u = w) → (∀ u, (s.writer u).role = .onAir l ↔ outgoing = some u) →
    (suppressed = true ↔ ((s.lane l).source = .script ∨ (l = .lane1 ∧ s.following = true))) →
    k = (match outgoing with
      | none => 0
      | some _ => overlap (s.lane l).builder.recent ((s.writer w).staging.map Staged.text)) →
    (s.lane l).builder.provisional.length + ((s.writer w).staging.length - k) ≤ 3 →
    (∀ p ∈ (s.lane l).builder.provisional, s.time.sfc < p.windowEnd) → 0 < (s.lane l).params.correction →
    (s.lane l).builder.style < 16 → s.styleLimit ≤ 16 →
    s.canAnswer → s.reports.length + ((s.writer w).staging.length - k) ≤ 30 →
    ∃ t, exec (.handover [BitVec.ofNat 8 (laneNumber l)]) s = .next t
      ∧ t = (let left := (s.writer w).toReplay k
             let closed := s.closedQuietly l .handover (s.lane l).builder
             let counters := { (s.lane l).counters with overlap := min ((s.lane l).counters.overlap + k) 65535 }
             let lane := if suppressed then
                 { s.lane l with
                   builder := closed
                   counters := { counters with suppressed := min (counters.suppressed + left.1.length) 65535 } }
               else
                 { s.lane l with builder := s.marked l left.2 (left.1.foldl (s.replayed l w) closed), counters := counters }
             let limits := if suppressed then [] else s.limitReports l w (left.1.map Staged.marks ++ [left.2])
             { s.setLane l lane with
               writers := t.writers, links := t.links, supervisionExpiry := supervisionRestarted s
               reports := s.reports ++ limits ++ [s.note .handover (some l) (some w) (some k)] })
      ∧ t.writer w = { s.writer w with
          role := .onAir l, staging := [], marks := { brk := false, speaker := none }, overflowReported := false }
      ∧ (∀ v, outgoing = some v → t.writer v = { s.writer v with
          role := .standby l, staging := [], marks := { brk := false, speaker := none }, overflowReported := false })
      ∧ (∀ u, u ≠ w → outgoing ≠ some u → t.writer u = s.writer u)
      ∧ t.links.automation = (linksAnswered s.links (ackOf 0x27 none)).automation
      ∧ (∀ k, k ≠ .automation → k ≠ .writer w → (∀ v, outgoing = some v → k ≠ .writer v) → t.link k = s.link k)
      ∧ ∀ u, (u = w ∨ outgoing = some u) → t.link (.writer u) = { s.link (.writer u) with
          waiting := (s.link (.writer u)).waiting.filter (fun f => decide (f.kind ≠ 0x18))
            ++ [roleFrame u (t.writer u)] })
  ∧ ∀ (s : State) (w : WriterId) (l : LaneId), (∀ u, (s.writer u).role = .standby l ↔ u = w) → s.canAnswer →
    ∃ t u, exec (.handover [BitVec.ofNat 8 (laneNumber l)]) s = .next t ∧ exec (.writerTake w []) s = .next u
      ∧ u = { t with links := u.links, supervisionExpiry := s.supervisionExpiry }
      ∧ u.links.automation = s.links.automation ∧ u.links.inserters = s.links.inserters
      ∧ (∀ v, v ≠ w → u.link (.writer v) = t.link (.writer v))
      ∧ u.link (.writer w) = { t.link (.writer w) with
          rx := Receiver.inFrame, good := min ((s.link (.writer w)).good + 1) 65535 }

/-- The overlap is the largest k from 0 to min(8, S, N) for which the last k window entries equal the first k staged
words, letters folded to one case. -/
def Obligations.OverlapIsTheLargest : Prop :=
  ∀ (window staged : List Text),
    overlap window staged ≤ min 8 (min staged.length window.length)
    ∧ (window.drop (window.length - overlap window staged)).map (·.map foldCase)
      = (staged.take (overlap window staged)).map (·.map foldCase)
    ∧ ∀ k, overlap window staged < k → k ≤ min 8 (min staged.length window.length) →
      (window.drop (window.length - k)).map (·.map foldCase) ≠ (staged.take k).map (·.map foldCase)

/-- A QUERY is answered with a ROLE frame of the writer as it stands, from every role and in every lane state. -/
def Obligations.QueryIsAnswered : Prop :=
  ∀ (s : State) (w : WriterId), exec (.query w []) s = .next
    { s with links := s.links.set (.writer w) { s.link (.writer w) with
        rx := Receiver.inFrame, good := min ((s.link (.writer w)).good + 1) 65535
        waiting := (s.link (.writer w)).waiting.filter (fun f => decide (f.kind ≠ 0x18))
          ++ [{ kind := 0x18
                payload := [BitVec.ofNat 8 (writerNumber w),
                  match (s.writer w).role with | .idle => 0 | .onAir _ => 1 | .standby _ => 2,
                  match (s.writer w).role with
                    | .idle => 0xFF
                    | .onAir l => BitVec.ofNat 8 (laneNumber l)
                    | .standby l => BitVec.ofNat 8 (laneNumber l),
                  BitVec.ofNat 8 (s.writer w).lag, BitVec.ofNat 8 ((s.writer w).lag / 256),
                  BitVec.ofNat 8 (s.writer w).staging.length] }] } }

/-- A refused writer frame changes nothing but the link: an unknown kind, a length the table does not allow, a WORD, BREAK,
SPEAKER or DELETE of an IDLE writer or of an on-air writer whose lane is STOPPED, a TAKE of a writer that is not STANDBY,
and, where the role lets the message pass, a WORD without text or with more than 24 characters and a DELETE of 0. -/
def Obligations.RefusedWriterFrames : Prop :=
  ∀ (s : State) (w : WriterId),
    (∀ (kind : Byte) (p : List Byte), isWriterKind kind = false →
      exec (.writerFrameRefused w kind p) s = .next { s with links := linksRefused s.links w 1 kind })
    ∧ (exec (.word w []) s = .next { s with links := linksRefused s.links w 2 0x10 }
      ∧ ∀ p : List Byte,
        (p ≠ [] → exec (.breakMark w p) s = .next { s with links := linksRefused s.links w 2 0x11 }
          ∧ exec (.writerTake w p) s = .next { s with links := linksRefused s.links w 2 0x14 }
          ∧ exec (.query w p) s = .next { s with links := linksRefused s.links w 2 0x15 })
        ∧ (p.length ≠ 1 → exec (.speaker w p) s = .next { s with links := linksRefused s.links w 2 0x12 }
          ∧ exec (.delete w p) s = .next { s with links := linksRefused s.links w 2 0x13 }))
    ∧ (∀ reason : Byte,
        ((s.writer w).role = .idle ∧ reason = 5
          ∨ ∃ l, (s.writer w).role = .onAir l ∧ (s.lane l).state = .stopped ∧ reason = 8) →
      (∀ (flags : Byte) (text : Text),
        exec (.word w (flags :: text)) s = .next { s with links := linksRefused s.links w reason 0x10 })
      ∧ exec (.breakMark w []) s = .next { s with links := linksRefused s.links w reason 0x11 }
      ∧ (∀ i : Byte, exec (.speaker w [i]) s = .next { s with links := linksRefused s.links w reason 0x12 })
      ∧ ∀ n : Byte, exec (.delete w [n]) s = .next { s with links := linksRefused s.links w reason 0x13 })
    ∧ (s.passesRole w →
      (∀ (flags : Byte) (text : Text), text = [] ∨ 24 < text.length →
        exec (.word w (flags :: text)) s = .next { s with links := linksRefused s.links w 4 0x10 })
      ∧ exec (.delete w [0]) s = .next { s with links := linksRefused s.links w 3 0x13 })
    ∧ ((∀ l, (s.writer w).role ≠ .standby l) →
      exec (.writerTake w []) s = .next { s with links := linksRefused s.links w 6 0x14 })

/-! ## Requests on link A -/

/-- An addressed frame that finds four replies unsent is only counted and restarts supervision; otherwise an unknown
kind is refused with BAD_KIND, and a length the table does not allow with BAD_LENGTH, with no other effect. -/
def Obligations.HeldBackAndRefusedFrames : Prop :=
  ∀ (s : State) (p : List Byte),
    (4 ≤ s.links.automation.waiting.length →
      (∀ e ∈ requestTable, exec (e.2 p) s = .next s.heard)
      ∧ ∀ kind, exec (.automationFrameRefused kind p) s = .next s.heard)
    ∧ (s.canAnswer →
      (∀ kind, isAutomationKind kind = false →
        exec (.automationFrameRefused kind p) s = .next (s.answered { kind := 0x51, payload := [1, kind] }))
      ∧ ∀ e ∈ requestTable, requestLengthOk e.1 p.length = false →
        exec (e.2 p) s = .next (s.answered { kind := 0x51, payload := [2, e.1] }))

/-- The requests that set one number, one style or the frame rate: each checks, clamps, sets and answers as its rule
says, and a field outside its values is refused with BAD_FIELD. That bits 5 to 7 of the style byte are not read is log entry
23; that the new F and P serve from the request on, and not from the next frame event, log entry 26. -/
def Obligations.SettingRequests : Prop :=
  ∀ (s : State), s.canAnswer →
    (∀ (w : WriterId) (lo hi : Byte),
      exec (.configureWriter [BitVec.ofNat 8 (writerNumber w), lo, hi]) s
        = .next (let lag := min 375 (lo.toNat + 256 * hi.toNat)
                 (s.answered (ackOf 0x21 (some lag))).setWriter w { s.writer w with lag := lag }))
    ∧ (∀ v : Byte, exec (.setStyleLimit [v]) s
        = .next { s.answered (ackOf 0x23 (some (max 1 (min 16 v.toNat)))) with styleLimit := max 1 (min 16 v.toNat) })
    ∧ (∀ v : Byte, exec (.setSupervision [v]) s
        = .next { s.answered (ackOf 0x25 (some (min 60 v.toNat))) with
            supervisionInterval := min 60 v.toNat
            supervisionExpiry :=
              if v = 0 then none else some (s.time.sfc + min 60 v.toNat * s.time.rate.hz) })
    ∧ (∀ n lo hi : Byte, 3 < n.toNat →
        exec (.configureWriter [n, lo, hi]) s = .next (s.answered { kind := 0x51, payload := [3, 0x21] }))
    ∧ (∀ (n st : Byte) (colour : Colour) (label : Text), n.toNat ≤ 15 → label.length ≤ 8 →
        ([.white, .yellow, .cyan, .green, .magenta, .red, .blue] : List Colour)[st.toNat % 8]? = some colour →
        (∀ c ∈ label, 0x21 ≤ c.toNat ∧ c.toNat ≤ 0x7E) →
        exec (.setStyle (n :: st :: label)) s
          = .next { s.answered (ackOf 0x22 none) with
              styles := s.styles.setIfInBounds n.toNat
                { style := { colour := colour, alignment := if st.getLsbD 3 then .centre else .left
                             italic := st.getLsbD 4 }
                  label := label } })
    ∧ (∀ (n st : Byte) (label : Text), label.length ≤ 238 →
        (15 < n.toNat ∨ st.toNat % 8 = 7 ∨ 8 < label.length ∨ ∃ c ∈ label, ¬ (0x21 ≤ c.toNat ∧ c.toNat ≤ 0x7E)) →
        exec (.setStyle (n :: st :: label)) s = .next (s.answered { kind := 0x51, payload := [3, 0x22] }))
    ∧ ∀ v : Byte, exec (.setFrameRate [v]) s = .next
        (if v = 25 ∨ v = 30 then
          if (s.lane .lane0).state = .running ∨ (s.lane .lane1).state = .running then
            s.answered { kind := 0x51, payload := [9, 0x24] }
          else
            { s.answered (ackOf 0x24 (some v.toNat)) with
              time := { s.time with rate := if v = 25 then .r25 else .r30, fod := 0, lock := .search, candidate := none
                                    misses := 0 } }
        else s.answered { kind := 0x51, payload := [3, 0x24] })

/-- CONFIGURE-LANE clamps every numeric parameter to its range, the hold times and the thresholds between each other; the
mode, the width and the rows are refused on a RUNNING lane, and where one of them changes on a STOPPED lane a READY deck is
invalidated; a name that is none of a parameter's values, a parameter or a lane that is not in the table, and a group above
255 are refused with BAD_FIELD. -/
def Obligations.ConfigureLaneParameters : Prop :=
  ∀ (s : State) (l : LaneId) (lo hi : Byte) (v : Nat), s.canAnswer → v = lo.toNat + 256 * hi.toNat →
    let p := (s.lane l).params
    let write (n : Byte) : Host.Outcome State Fault Refusal :=
      exec (.configureLane [BitVec.ofNat 8 (laneNumber l), n, lo, hi]) s
    let badField := s.answered { kind := 0x51, payload := [3, 0x20] }
    (∀ e ∈ plainParams, write e.1 = .next
      (s.withParams l (e.2.2.2 (clamp e.2.1 e.2.2.1 v) p) (clamp e.2.1 e.2.2.1 v)))
    ∧ (let x := clamp (max 12 p.hFloor) (min 125 p.hMax) v
       write 4 = .next (s.withParams l { p with hMin := x } x))
    ∧ (let x := clamp p.hMin 375 v
       write 5 = .next (s.withParams l { p with hMax := x } x))
    ∧ (let x := clamp 6 p.hMin v
       write 6 = .next (s.withParams l { p with hFloor := x } x))
    ∧ (let x := clamp 0 (min 250 p.lam2) v
       write 12 = .next (s.withParams l { p with lam1 := x } x))
    ∧ (let x := clamp p.lam1 (min 500 p.lamMax) v
       write 13 = .next (s.withParams l { p with lam2 := x } x))
    ∧ (let x := clamp p.lam2 750 v
       write 14 = .next (s.withParams l { p with lamMax := x } x))
    ∧ write 16 = .next (if v ≤ 255 then s.withParams l { p with group := v } v else badField)
    ∧ write 17 = .next
      (if v = 0 then s.withParams l { p with reply := .changeOnly } 0
       else if v = 1 then s.withParams l { p with reply := .everyFrame } 1 else badField)
    ∧ write 18 = .next
      (if v = 0 then s.withParams l { p with pacing := .stepped } 0
       else if v = 1 then s.withParams l { p with pacing := .auto } 1 else badField)
    ∧ write 19 = .next
      (if 1 < v then badField
       else if p.align = decide (v = 1) then s.withParams l p v
       else (s.answered (ackOf 0x20 (some v))).setLane l { s.lane l with
         params := { p with align := decide (v = 1) }
         display := { (s.lane l).display with missRun := 0, matchRun := 0, alignFault := false } })
    ∧ (1 < v → write 0 = .next badField)
    ∧ ((s.lane l).state = .running →
      (v ≤ 1 → write 0 = .next (s.answered { kind := 0x51, payload := [9, 0x20] }))
      ∧ write 1 = .next (s.answered { kind := 0x51, payload := [9, 0x20] })
      ∧ write 2 = .next (s.answered { kind := 0x51, payload := [9, 0x20] }))
    ∧ ((s.lane l).state = .stopped → s.canReport →
      (v = 0 → write 0 = .next (s.withLayout l { p with mode := .block, rows := clamp 1 3 p.rows } (256 * clamp 1 3 p.rows)))
      ∧ (v = 1 → write 0 = .next
        (s.withLayout l { p with mode := .roll, rows := clamp 2 4 p.rows } (1 + 256 * clamp 2 4 p.rows)))
      ∧ write 1 = .next (s.withLayout l { p with width := clamp 24 42 v } (clamp 24 42 v))
      ∧ (let x := match p.mode with | .block => clamp 1 3 v | .roll => clamp 2 4 v
         write 2 = .next (s.withLayout l { p with rows := x } x)))
    ∧ ∀ (lane n : Byte), (1 < lane.toNat ∨ 19 < n.toNat) →
      exec (.configureLane [lane, n, lo, hi]) s = .next badField

/-- An ASSIGN of an IDLE writer to ON_AIR displaces the holder, closes no unit where none is open, and tells both
writers. -/
def Obligations.AssignDisplacesTheHolder : Prop :=
  ∀ (s : State) (w v : WriterId) (l : LaneId), (s.writer w).role = .idle →
    (∀ u, (s.writer u).role = .onAir l ↔ u = v) → (s.lane l).builder.openUnit = none → s.canAnswer →
    ∃ t, exec (.assign [BitVec.ofNat 8 (writerNumber w), 1, BitVec.ofNat 8 (laneNumber l)]) s = .next t
      ∧ t = { s with writers := t.writers, links := t.links, supervisionExpiry := supervisionRestarted s }
      ∧ t.writer w = { s.writer w with role := .onAir l }
      ∧ t.writer v = { s.writer v with role := .idle }
      ∧ (∀ u, u ≠ w → u ≠ v → t.writer u = s.writer u)
      ∧ t.links.automation = (linksAnswered s.links (ackOf 0x26 none)).automation
      ∧ (∀ k, k ≠ .automation → k ≠ .writer w → k ≠ .writer v → t.link k = s.link k)
      ∧ t.link (.writer w) = { s.link (.writer w) with
          waiting := (s.link (.writer w)).waiting.filter (fun f => decide (f.kind ≠ 0x18))
            ++ [roleFrame w (t.writer w)] }
      ∧ t.link (.writer v) = { s.link (.writer v) with
          waiting := (s.link (.writer v)).waiting.filter (fun f => decide (f.kind ≠ 0x18))
            ++ [roleFrame v (t.writer v)] }

/-- START makes a STOPPED lane RUNNING with a fresh display set and no record; STOP empties a RUNNING lane. `nextRef` is
the model's (log entry 4). -/
def Obligations.StartAndStop : Prop :=
  ∀ (s : State) (l : LaneId), s.canAnswer →
    ((s.lane l).state = .stopped →
      exec (.start [BitVec.ofNat 8 (laneNumber l)]) s = .next
        { (s.answered (ackOf 0x28 none)).setLane l { s.lane l with
            state := .running
            engine := { (s.lane l).engine with record := none, level := .level0 }
            display := displayReset s.time.sfc } with
          followedSerial := if l = .lane1 then none else s.followedSerial
          followedStatus := if l = .lane1 then none else s.followedStatus })
    ∧ ((s.lane l).state = .running → (s.lane l).deck.pendingTake = none →
        (∀ g, (s.lane l).deck.state ≠ .playing g) →
      exec (.stop [BitVec.ofNat 8 (laneNumber l)]) s = .next
        { (s.answered (ackOf 0x29 none)).setLane l { s.lane l with
            state := .stopped, source := .live, frozen := false, held := false
            builder := emptyBuilder 0 false
            engine := emptyEngine (s.lane l).engine.nextRef
            display := displayReset s.time.sfc } with
          followedSerial := if l = .lane1 then none else s.followedSerial
          followedStatus := if l = .lane1 then none else s.followedStatus })

/-! ## The script store -/

/-- LOAD-BUFFER writes each byte as received from the start position on, and no other byte of the buffer. -/
def Obligations.LoadBufferWritesTheRun : Prop :=
  ∀ (s : State) (b : BufferId) (start : Byte) (run : List Byte), s.canAnswer → (s.store.buffer b).locked = false →
    (s.store.buffer b).chars.wf = true → start.toNat + run.length ≤ 96 →
    ∃ t, exec (.loadBuffer (BitVec.ofNat 8 b.code :: start :: run)) s = .next t
      ∧ t = { s.answered (ackOf 0x2A none) with store := s.store.setBuffer b (t.store.buffer b) }
      ∧ (t.store.buffer b).locked = false
      ∧ ∀ a, (t.store.buffer b).chars.read a
          = if start.toNat ≤ a ∧ a < start.toNat + run.length then run.getD (a - start.toNat) 0
            else (s.store.buffer b).chars.read a

/-- An accepted COMMIT makes its page WRITING and its buffer locked; a STORE-RESET that finds it in flight leaves the
page INVALID and the buffer unlocked. -/
def Obligations.CommitAndStoreReset : Prop :=
  ∀ (s : State) (b : BufferId), s.canAnswer →
    (∀ (lo hi : Byte), lo.toNat + 256 * hi.toNat ≤ 511 → s.store.engine = .idle →
      exec (.commit [BitVec.ofNat 8 b.code, lo, hi]) s = .next
        { s.answered (ackOf 0x2B none) with
          store := { (s.store.setBuffer b { s.store.buffer b with locked := true }) with
            pages := s.store.pages.setIfInBounds (lo.toNat + 256 * hi.toNat) .writing
            engine := .commit b (lo.toNat + 256 * hi.toNat) } })
    ∧ ∀ page, s.store.engine = .commit b page → s.canReport →
      exec (.storeReset []) s = .next
        { s.answered (ackOf 0x30 none) with
          store := { (s.store.setBuffer b { s.store.buffer b with locked := false }) with
            pages := s.store.pages.setIfInBounds page .invalid, engine := .idle }
          reports := s.reports ++ [s.note .storeAbandoned none none (some (1 * 16777216 + page))] }

/-- The completion of a COMMIT copies the 96 characters of the buffer into the page. -/
def Obligations.CommitCompletionCopiesTheBuffer : Prop :=
  ∀ (s : State) (b : BufferId) (page : Nat), s.store.engine = .commit b page → s.store.text.wf = true → s.canReport →
    ∃ t, exec .commitCompletion s = .next t
      ∧ t = { s with
          store := { (s.store.setBuffer b { s.store.buffer b with locked := false }) with
            pages := s.store.pages.setIfInBounds page .valid, text := t.store.text, engine := .idle }
          reports := s.reports ++ [s.note .storeDone none none (some (1 * 16777216 + page))] }
      ∧ ∀ a, t.store.text.read a
          = if 96 * page ≤ a ∧ a < 96 * page + 96 then (s.store.buffer b).chars.read (a - 96 * page)
            else s.store.text.read a

/-- An accepted COMPARE only makes the engine BUSY; its completion records MATCH, or DIFFER with the lowest position at
which the buffer and the page differ. -/
def Obligations.CompareFindsTheFirstDifference : Prop :=
  (∀ (s : State) (b : BufferId) (lo hi : Byte), s.canAnswer → lo.toNat + 256 * hi.toNat ≤ 511 →
    s.store.page (lo.toNat + 256 * hi.toNat) = .valid → s.store.engine = .idle →
    exec (.compare [BitVec.ofNat 8 b.code, lo, hi]) s = .next
      { s.answered (ackOf 0x2C none) with
        store := { s.store with engine := .compare b (lo.toNat + 256 * hi.toNat) } })
  ∧ ∀ (s : State) (b : BufferId) (page : Nat), s.store.engine = .compare b page → s.canReport →
    ∃ d : Option Nat, exec .compareCompletion s = .next
        { s with
          store := { s.store with
            engine := .idle
            lastCompare := some { isMatch := d.isNone, buffer := b, page := page, firstDiff := d
                                  completedAt := s.time.sfc } }
          reports := s.reports
            ++ [s.note .storeDone none none
              (some (2 * 16777216 + (if d.isNone then 1 else 2) * 65536 + page))] }
      ∧ (d = none → ∀ i, i < 96 → (s.store.buffer b).chars.read i = s.store.text.read (96 * page + i))
      ∧ ∀ i, d = some i → i < 96 ∧ (s.store.buffer b).chars.read i ≠ s.store.text.read (96 * page + i)
        ∧ ∀ j, j < i → (s.store.buffer b).chars.read j = s.store.text.read (96 * page + j)

/-- DEFINE-SEGMENT and DELETE-SEGMENT, in either engine state: the checks in their order, and the one entry set or
cleared. -/
def Obligations.SegmentTableRequests : Prop :=
  ∀ (s : State) (id : Byte), s.canAnswer →
    (∀ (lo hi count : Byte), exec (.defineSegment [id, lo, hi, count]) s = .next
      (if 63 < id.toNat then s.answered { kind := 0x51, payload := [3, 0x2D] }
      else if count.toNat = 0 ∨ 32 < count.toNat ∨ 512 < lo.toNat + 256 * hi.toNat + count.toNat then
        s.answered { kind := 0x51, payload := [15, 0x2D] }
      else if s.store.engine = .prepare id.toNat .lane0 ∨ s.store.engine = .prepare id.toNat .lane1 then
        s.answered { kind := 0x51, payload := [16, 0x2D] }
      else
        { s.answered (ackOf 0x2D none) with store := { s.store with
            segments := s.store.segments.setIfInBounds id.toNat
              (some { first := lo.toNat + 256 * hi.toNat, count := count.toNat }) } }))
    ∧ exec (.deleteSegment [id]) s = .next
      (if 63 < id.toNat then s.answered { kind := 0x51, payload := [3, 0x2E] }
      else if s.store.engine = .prepare id.toNat .lane0 ∨ s.store.engine = .prepare id.toNat .lane1 then
        s.answered { kind := 0x51, payload := [16, 0x2E] }
      else
        { s.answered (ackOf 0x2E none) with
          store := { s.store with segments := s.store.segments.setIfInBounds id.toNat none } })

/-- An accepted PREPARE makes the deck PREPARING. At its completion the text of the segment, read as words, separators,
breaks and speaker changes, is laid out into units: the deck becomes READY with the first 48 of them, and STORE_DONE, the
indices that met the style limit and the number of units discarded are reported in that order. -/
def Obligations.PrepareFillsTheDeck : Prop :=
  (∀ (s : State) (l : LaneId) (id : Byte) (g : Segment), s.canAnswer → id.toNat ≤ 63 →
    s.store.segment id.toNat = some g → (∀ i, i < g.count → s.store.page (g.first + i) = .valid) →
    (∀ h, (s.lane l).deck.state ≠ .playing h) → s.store.engine = .idle →
    exec (.prepare [id, BitVec.ofNat 8 (laneNumber l)]) s = .next
      { (s.answered (ackOf 0x2F none)).setLane l { s.lane l with
          deck := bareDeck (.preparing id.toNat) (s.lane l).deck.pendingTake } with
        store := { s.store with engine := .prepare id.toNat l } })
  ∧ ∀ (s : State) (l : LaneId) (id : Nat) (g : Segment) (items : List ScriptItem), s.store.engine = .prepare id l →
    s.store.segment id = some g → s.store.textOfSegment g = items.flatMap ScriptItem.chars →
    (∀ x ∈ items, x.proper = true) → wordsApart items = true → s.styleLimit ≤ 16 →
    (s.lane l).deck.pendingTake = none →
    s.reports.length + (s.layingOf l id items).limited.length ≤ 30 →
    exec .prepareCompletion s = .next
      (let laid := s.layingOf l id items
       { s.setLane l { s.lane l with deck := { bareDeck (.ready id) none with units := laid.closed.take 48 } } with
         store := { s.store with engine := .idle }
         reports := s.reports ++ [s.note .storeDone (some l) none (some (3 * 16777216 + id))]
           ++ laid.limited.map (fun i => s.note .styleLimit (some l) none (some i))
           ++ if 48 < laid.closed.length then
               [s.note .deckTruncated (some l) none (some (laid.closed.length - 48))]
             else [] })

/-! ## Cues -/

/-- FREEZE and HOLD set their flag on each RUNNING lane that the group mask addresses (a mask of 0 addresses both), and
do nothing else: a STOPPED lane and a lane that is not addressed stay as they are. -/
def Obligations.FreezeAndHold : Prop :=
  ∀ (s : State) (broadcast : Bool) (mask tag segment a b c : Byte), (broadcast = true ∨ s.canAnswer) →
    exec (.freeze broadcast (immediateCue mask tag segment a b c)) s
      = .next { s.cueHeard broadcast with
          lanes := s.onReached mask fun ln => { ln with frozen := true } }
    ∧ exec (.hold broadcast (immediateCue mask tag segment a b c)) s
      = .next { s.cueHeard broadcast with
          lanes := s.onReached mask fun ln => { ln with held := true } }

/-- THAW and RESUME, ending the last of the two flags, retime the lane: along the walk from a ready next unit through the
queue, units older than Λstale are discarded, counted and reported, the first survivor is raised to now and each later one
behind the survivor before it; the record is the last survivor's, and composition follows. A THAW that leaves HELD set only
composes; a RESUME that leaves FROZEN set only clears HELD; a THAW of a lane that is not FROZEN and a RESUME of one that is
not HELD do nothing. `ref` is the model's (log entry 4). -/
def Obligations.ThawAndResumeRetime : Prop :=
  ∀ (s : State) (l : LaneId) (broadcast : Bool) (mask tag segment a b c : Byte), s.onlyAddresses mask l →
    (s.lane l).state = .running → (broadcast = true ∨ s.canAnswer) → (s.lane l).feedsNothing →
    let thaw := exec (.thaw broadcast (immediateCue mask tag segment a b c)) s
    let resume := exec (.resume broadcast (immediateCue mask tag segment a b c)) s
    ((s.lane l).frozen = true → (s.lane l).held = false → s.canReport →
      thaw = .next ((s.cueHeard broadcast).retimed l { s.lane l with frozen := false }))
    ∧ ((s.lane l).held = true → (s.lane l).frozen = false → s.canReport →
      resume = .next ((s.cueHeard broadcast).retimed l { s.lane l with held := false }))
    ∧ ((s.lane l).frozen = true → (s.lane l).held = true →
      thaw = .next ((s.cueHeard broadcast).setLane l ({ s.lane l with frozen := false } : Lane).composed)
      ∧ resume = .next ((s.cueHeard broadcast).setLane l { s.lane l with held := false }))
    ∧ ((s.lane l).frozen = false → thaw = .next (s.cueHeard broadcast))
    ∧ ((s.lane l).held = false → resume = .next (s.cueHeard broadcast))

/-- STEP releases the next image of a HELD lane that is not FROZEN, whatever its release frame, and the head of the queue is
composed over the image that has come to air; on a lane that is not HELD, that is FROZEN, or that has no next image ready, it
does nothing. -/
def Obligations.StepReleasesOne : Prop :=
  ∀ (s : State) (l : LaneId) (broadcast : Bool) (mask tag segment a b c : Byte), s.onlyAddresses mask l →
    (s.lane l).state = .running → (broadcast = true ∨ s.canAnswer) → (s.lane l).feedsNothing →
    exec (.stepCue broadcast (immediateCue mask tag segment a b c)) s = .next
      (if (s.lane l).held = true ∧ (s.lane l).frozen = false ∧ (s.lane l).display.nextReady = true then
        (s.cueHeard broadcast).setLane l ((s.lane l).released s.time.sfc)
      else s.cueHeard broadcast)

/-- CLEAR empties the timeline of the RUNNING lane it addresses, blanks it, clears its flags and keeps the style state.
`nextRef` is the model's (log entry 4). -/
def Obligations.ClearEmptiesTheLane : Prop :=
  ∀ (s : State) (l : LaneId) (broadcast : Bool) (mask tag segment a b c : Byte), s.onlyAddresses mask l →
    (s.lane l).state = .running → (broadcast = true ∨ s.canAnswer) → (s.lane l).deck.state = .empty →
    (s.lane l).deck.pendingTake = none →
    exec (.clear broadcast (immediateCue mask tag segment a b c)) s
      = .next ((s.cueHeard broadcast).setLane l { s.lane l with
          source := .live, frozen := false, held := false
          builder := emptyBuilder (s.lane l).builder.style (s.lane l).builder.pendingLabel
          engine := emptyEngine (s.lane l).engine.nextRef
          display := (s.lane l).display.blankedByCue })

/-- JOIN empties lane 1, RUNNING or STOPPED, and sets FOLLOWING; SPLIT empties it and clears FOLLOWING; on lane 0 alone
neither does anything. That a JOIN that begins following clears the followed serial and status is log entry 13;
`nextRef` is the model's (log entry 4). -/
def Obligations.JoinAndSplit : Prop :=
  ∀ (s : State) (broadcast : Bool) (mask tag segment a b c : Byte), (broadcast = true ∨ s.canAnswer) →
    (s.onlyAddresses mask .lane1 → (s.lane .lane1).deck.state = .empty →
      ((s.lane .lane1).deck.pendingTake = none →
        exec (.join broadcast (immediateCue mask tag segment a b c)) s
          = .next { (s.cueHeard broadcast).setLane .lane1 { s.lane .lane1 with
                source := .live, frozen := false, held := false
                builder := emptyBuilder 0 false
                engine := emptyEngine (s.lane .lane1).engine.nextRef
                display := (s.lane .lane1).display.blankedByCue } with
              following := true
              followedSerial := if s.following then s.followedSerial else none
              followedStatus := if s.following then s.followedStatus else none })
      ∧ exec (.split broadcast (immediateCue mask tag segment a b c)) s
          = .next { (s.cueHeard broadcast).setLane .lane1 { s.lane .lane1 with
                frozen := false, held := false
                builder := emptyBuilder 0 false
                engine := emptyEngine (s.lane .lane1).engine.nextRef
                display := (s.lane .lane1).display.blankedByCue } with
              following := false })
    ∧ (s.onlyAddresses mask .lane0 →
      exec (.join broadcast (immediateCue mask tag segment a b c)) s = .next (s.cueHeard broadcast)
      ∧ exec (.split broadcast (immediateCue mask tag segment a b c)) s = .next (s.cueHeard broadcast))

/-- A TAKE of a READY deck makes the source SCRIPT. Under STEPPED pacing it times the first deck unit, and an ADVANCE times
the next one, each with the SFC of the cue as its onset, and composition follows. Under AUTO pacing, on a FROZEN lane, it fixes an onset for every unit and moves units
until the timed queue is full; a place freed later, here by a STEP, takes the next unit. The deck ends with SEGMENT_END when
its last unit is timed. A TAKE that finds the deck PREPARING is recorded, and carried out from its own cue frame at the
completion. Every other TAKE and ADVANCE is refused. `ref` and `nextRef` are the model's (log entry 4), and so is that the
next index counts from 0 (log entry 22). -/
def Obligations.TakeAndAdvance : Prop :=
  (∀ (s : State) (l : LaneId) (broadcast : Bool) (mask tag segment a b c : Byte), s.onlyAddresses mask l →
    (s.lane l).state = .running → (broadcast = true ∨ s.canAnswer) → s.canReport → segment.toNat ≤ 63 →
    ((l = .lane1 → s.following = false) → (s.lane l).noLiveText → (s.lane l).deck.state = .ready segment.toNat →
      (∀ u ∈ (s.lane l).deck.units, u.origin = .script segment.toNat) →
      (∀ (u : CaptionUnit) (left : List CaptionUnit), (s.lane l).params.pacing = .stepped →
        (s.lane l).deck.units = u :: left → s.fitsBehind l s.time.sfc →
        ∃ t, timedAfter (s.lane l).params s.time.rate s.time.sfc (s.lane l).engine.record u s.time.sfc t
          ∧ exec (.takeCue broadcast (immediateCue mask tag segment a b c)) s = .next
            ((s.cueHeard broadcast).playing l (((s.lane l).taken segment.toNat .stepped []).played [t] left).composed
              segment.toNat left))
      ∧ ((s.lane l).params.pacing = .auto → (s.lane l).frozen = true → (s.lane l).params.inRange →
        (s.lane l).params.lead ≤ (s.lane l).params.delay →
        (s.lane l).engine.queue = [] → (s.lane l).engine.record = none →
        ∃ onsets ts, onsetsOf (s.lane l).params s.time.rate s.time.sfc (s.lane l).deck.units onsets
          ∧ (s.lane l).atReadingPace s.time.rate (s.lane l).deck.units onsets ts
          ∧ exec (.takeCue broadcast (immediateCue mask tag segment a b c)) s = .next
            ((s.cueHeard broadcast).playing l
              (((s.lane l).taken segment.toNat .auto onsets).played ts ((s.lane l).deck.units.drop 32))
              segment.toNat ((s.lane l).deck.units.drop 32))))
    ∧ ((l = .lane1 → s.following = false) → (s.lane l).deck.state = .preparing segment.toNat →
        (s.lane l).deck.pendingTake = none →
      exec (.takeCue broadcast (immediateCue mask tag segment a b c)) s
        = .next ((s.cueHeard broadcast).setLane l { s.lane l with deck := { (s.lane l).deck with
            pendingTake := some { frame := s.time.sfc, tag := tag.toNat } } }))
    ∧ (l = .lane1 → s.following = true →
      exec (.takeCue broadcast (immediateCue mask tag segment a b c)) s = .next
        { s.cueHeard broadcast with
          reports := s.reports ++ [s.note (.refuse .following) (some l) none (some tag.toNat)] })
    ∧ ((l = .lane1 → s.following = false) → (s.lane l).deck.state ≠ .ready segment.toNat →
        ((s.lane l).deck.state = .preparing segment.toNat → (s.lane l).deck.pendingTake ≠ none) →
      exec (.takeCue broadcast (immediateCue mask tag segment a b c)) s = .next
        { s.cueHeard broadcast with
          reports := s.reports ++ [s.note (.refuse .takeRefused) (some l) none (some tag.toNat)] })
    ∧ (∀ (g : Nat) (u : CaptionUnit) (left : List CaptionUnit), (s.lane l).deck.state = .playing g → (s.lane l).deck.pacing = some .stepped →
        (s.lane l).deck.units = u :: left → u.origin = .script g → s.fitsBehind l s.time.sfc →
      ∃ t, timedAfter (s.lane l).params s.time.rate s.time.sfc (s.lane l).engine.record u s.time.sfc t
        ∧ exec (.advance broadcast (immediateCue mask tag segment a b c)) s
          = .next ((s.cueHeard broadcast).playing l ((s.lane l).played [t] left).composed g left))
    ∧ ((∀ g, (s.lane l).deck.state = .playing g → (s.lane l).deck.pacing ≠ some .stepped) →
      exec (.advance broadcast (immediateCue mask tag segment a b c)) s = .next
        { s.cueHeard broadcast with
          reports := s.reports ++ [s.note (.refuse .takeRefused) (some l) none (some tag.toNat)] })
    ∧ (∀ (g onset : Nat) (u : CaptionUnit) (left : List CaptionUnit) (onsets : List Nat), (s.lane l).held = true →
        (s.lane l).frozen = false → (s.lane l).display.nextReady = true → (s.lane l).engine.queue.length = 32 →
        (s.lane l).deck.state = .playing g → (s.lane l).deck.pacing = some .auto →
        (s.lane l).deck.units = u :: left → (s.lane l).deck.onsets = onset :: onsets → u.origin = .script g →
        (∀ x, (s.lane l).engine.record = some x → (x.release : Int) + x.minimum
          ≤ max ((onset : Int) + (s.lane l).params.delay - (s.lane l).params.lead) s.time.sfc
            + (s.lane l).params.lamMax) →
      ∃ t s', exec (.stepCue broadcast (immediateCue mask tag segment a b c))
            (s.setLane l { s.lane l with deck := bareDeck .empty none }) = .next s'
        ∧ timedAfter (s.lane l).params s.time.rate s.time.sfc (s.lane l).engine.record u onset t
        ∧ exec (.stepCue broadcast (immediateCue mask tag segment a b c)) s
          = .next (s'.playing l (({ s'.lane l with deck := (s.lane l).deck } : Lane).played [t] left) g left)))
  ∧ ∀ (s s' : State) (l : LaneId) (g : Nat) (take : PendingTake), s.store.engine = .prepare g l →
    (s.lane l).deck.pendingTake = some take →
    exec .prepareCompletion (s.setLane l { s.lane l with deck := { (s.lane l).deck with pendingTake := none } })
      = .next s' → s'.canReport → (s'.lane l).noLiveText →
    (∀ (u : CaptionUnit) (left : List CaptionUnit), (s.lane l).params.pacing = .stepped →
      (s'.lane l).deck.units = u :: left → s.fitsBehind l take.frame →
      ∃ t, timedAfter (s.lane l).params s.time.rate s.time.sfc (s.lane l).engine.record u take.frame t
        ∧ exec .prepareCompletion s
          = .next (s'.playing l (((s'.lane l).taken g .stepped []).played [t] left).composed g left))
    ∧ ((s.lane l).params.pacing = .auto → (s.lane l).frozen = true → (s.lane l).params.inRange →
      s.time.sfc + (s.lane l).params.lead ≤ take.frame + (s.lane l).params.delay →
      (s.lane l).engine.queue = [] → (s.lane l).engine.record = none →
      ∃ onsets ts, onsetsOf (s.lane l).params s.time.rate take.frame (s'.lane l).deck.units onsets
        ∧ (s.lane l).atReadingPace s.time.rate (s'.lane l).deck.units onsets ts
        ∧ exec .prepareCompletion s = .next
          (s'.playing l (((s'.lane l).taken g .auto onsets).played ts ((s'.lane l).deck.units.drop 32)) g
            ((s'.lane l).deck.units.drop 32)))

/-- END ends a PLAYING deck without a report, drops the pending take of a PREPARING one, and is refused in every other
state of the deck. -/
def Obligations.EndActsOnTheDeck : Prop :=
  ∀ (s : State) (l : LaneId) (broadcast : Bool) (mask tag segment a b c : Byte), s.onlyAddresses mask l →
    (s.lane l).state = .running → (broadcast = true ∨ s.canAnswer) → s.canReport →
    exec (.endCue broadcast (immediateCue mask tag segment a b c)) s = .next
      (match (s.lane l).deck.state, (s.lane l).deck.pendingTake with
      | .playing _, take =>
        (s.cueHeard broadcast).setLane l { s.lane l with source := .live, deck := bareDeck .empty take }
      | .preparing _, some take =>
        { (s.cueHeard broadcast).setLane l { s.lane l with deck := { (s.lane l).deck with pendingTake := none } } with
          reports := s.reports ++ [s.note .takeAbandoned (some l) none (some take.tag)] }
      | _, _ =>
        { s.cueHeard broadcast with
          reports := s.reports ++ [s.note (.refuse .takeRefused) (some l) none (some tag.toNat)] })

/-- A cue of any kind, addressed or broadcast, with a target ahead enters the schedule behind every entry due no later, or
is refused with CUE_FULL; with a target at hand it is carried out at once, and with a target behind after LATE_CUE; a field
outside its values is refused with BAD_FIELD and a wrong length with BAD_LENGTH. A scheduled cue is carried out when it is
due, the head of the schedule first, as the same cue without a target is; CANCEL-CUE removes the entries of its tag and
answers with their number. That the due entries are a command's act, and not the frame event's, is log entry 10, and that a
cue row carries the rest of its frame after the kind byte, and another row a kind byte that names no cue, log entry 24; the P
of a target right after a SET-FRAME-RATE is log entry 26. -/
def Obligations.ScheduledCues : Prop :=
  (∀ (s : State) (e : Byte × CueKind × (Bool → List Byte → Instr)) (broadcast : Bool) (mask tag segment a b c : Byte),
    e ∈ cueTable → (broadcast = true ∨ s.canAnswer) →
    ((e.2.1 = .take → segment.toNat ≤ 63) → targetOf a b c < s.time.rate.day →
      (s.time.ahead (targetOf a b c) = 0 →
        exec (e.2.2 broadcast [mask, tag, segment, 1, a, b, c]) s
          = exec (e.2.2 broadcast (immediateCue mask tag segment a b c)) s)
      ∧ (s.time.rate.day / 2 < s.time.ahead (targetOf a b c) → s.canReport →
        exec (e.2.2 broadcast [mask, tag, segment, 1, a, b, c]) s
          = exec (e.2.2 broadcast (immediateCue mask tag segment a b c))
            { s with reports := s.reports
                ++ [s.note .lateCue none none (some (s.time.rate.day - s.time.ahead (targetOf a b c)))] })
      ∧ (0 < s.time.ahead (targetOf a b c) → s.time.ahead (targetOf a b c) ≤ s.time.rate.day / 2 →
        (s.schedule.length < 32 →
          ∃ before after : List ScheduledCue, s.schedule = before ++ after
            ∧ (∀ x ∈ before, x.target ≤ s.time.sfc + s.time.ahead (targetOf a b c))
            ∧ (∀ x ∈ after.head?, s.time.sfc + s.time.ahead (targetOf a b c) < x.target)
            ∧ exec (e.2.2 broadcast [mask, tag, segment, 1, a, b, c]) s = .next
                { (if broadcast then s.heard
                   else s.answered (ackOf 0x40 (some (s.time.sfc + s.time.ahead (targetOf a b c))))) with
                  schedule := before
                    ++ { cue := { kind := e.2.1, mask := mask, tag := tag.toNat, segment := segment.toNat }
                         target := s.time.sfc + s.time.ahead (targetOf a b c) } :: after })
        ∧ (32 ≤ s.schedule.length → s.canReport →
          exec (e.2.2 broadcast [mask, tag, segment, 1, a, b, c]) s
            = .next (s.cueRefused broadcast .cueFull 18 (some tag.toNat)))))
    ∧ (∀ present : Byte, s.canReport →
        (1 < present.toNat ∨ (present = 1 ∧ s.time.rate.day ≤ targetOf a b c) ∨ (e.2.1 = .take ∧ 63 < segment.toNat)) →
      exec (e.2.2 broadcast [mask, tag, segment, present, a, b, c]) s
        = .next (s.cueRefused broadcast .badField 3 (some tag.toNat)))
    ∧ ∀ rest : List Byte, s.canReport → rest.length ≠ 7 →
      exec (e.2.2 broadcast rest) s
        = .next (s.cueRefused broadcast .badLength 2 (if 2 ≤ rest.length then rest[1]?.map BitVec.toNat else none)))
  ∧ (∀ (s : State) (kind mask tag segment present a b c : Byte), s.canAnswer → s.canReport →
    (kind = 0 ∨ 11 < kind.toNat) →
    exec (.automationFrameRefused 0x40 [kind, mask, tag, segment, present, a, b, c]) s
      = .next (s.cueRefused false .badField 3 (some tag.toNat)))
  ∧ (∀ s : State, (∀ e ∈ s.schedule.head?, s.time.sfc < e.target) → exec .cueScheduleDue s = .next s)
  ∧ (∀ (s : State) (e : Byte × CueKind × (Bool → List Byte → Instr)) (x : ScheduledCue) (rest : List ScheduledCue)
      (tag segment : Byte), e ∈ cueTable → s.schedule = x :: rest → x.target ≤ s.time.sfc →
    x.cue = { kind := e.2.1, mask := x.cue.mask, tag := tag.toNat, segment := segment.toNat } →
    (e.2.1 = .take → segment.toNat ≤ 63) →
    ∃ t, exec (e.2.2 true (immediateCue x.cue.mask tag segment 0 0 0)) { s with schedule := rest } = .next t
      ∧ exec .cueScheduleDue s
        = exec .cueScheduleDue { t with links := s.links, supervisionExpiry := s.supervisionExpiry })
  ∧ ∀ (s : State) (tag : Byte), s.canAnswer →
    exec (.cancelCue [tag]) s = .next
      { s.answered (ackOf 0x31 (some ((s.schedule.filter fun e => decide (e.cue.tag = tag.toNat)).length))) with
        schedule := s.schedule.filter fun e => decide (e.cue.tag ≠ tag.toNat) }

/-- RELEASE, and the expiry of the supervision timer, carry out automation withdraw on both lanes, whatever their states: READY
and PLAYING decks EMPTY, the sources LIVE, pending takes dropped, and each RUNNING lane that was FROZEN or HELD free and
retimed; the schedule is emptied and the timer stopped. UNITS_STALE, TAKE_ABANDONED and AUTOMATION_WITHDRAW are queued behind
the reports that wait, in that order, lane 0 first. The expiry does nothing while the timer is stopped or its frame is ahead.
That the expiry is a command of its own is log entry 10, that it does nothing before its frame log entry 3; `ref` is the
model's (log entry 4). -/
def Obligations.AutomationWithdraws : Prop :=
  ∀ s : State, s.reports.length ≤ 27 →
    (s.canAnswer →
      exec (.release []) s = .next { s.withdrawn 0 with links := linksAnswered s.links (ackOf 0x32 none) })
    ∧ exec .automationSupervisionExpiry s = .next
      (match s.supervisionExpiry with
      | none => s
      | some x => if x ≤ s.time.sfc then s.withdrawn 1 else s)

/-! ## The report unit -/

/-- POLL returns the oldest reports, at most four, with the overflow mark, and clears the mark. -/
def Obligations.PollReturnsTheOldest : Prop :=
  ∀ (s : State), s.canAnswer →
    exec (.poll []) s = .next
      { s.answered { kind := 0x52
                     payload := [if s.reportOverflow then 1 else 0, BitVec.ofNat 8 (min 4 s.reports.length)]
                       ++ (s.reports.take 4).flatMap Report.bytes } with
        reports := s.reports.drop 4, reportOverflow := false }

/-- STATUS changes no state but the counting, the timer and the reply. A section above 4, and the lane section with an
argument above 1, are refused with BAD_FIELD. Its time base section, its writers section and its links section give their
items in order, an absent one as 0xFF in each byte, and its lane section ends with the seven lane counters; the request
itself is counted before the reply is built. The one-byte codes of flags and states in the first two are log entry 7. -/
def Obligations.StatusChangesNothing : Prop :=
  ∀ (s : State) (lo hi : Byte), s.canAnswer →
    let optional (width : Nat) : Option Nat → List Byte
      | none => List.replicate width 0xFF
      | some v => leBytes width v
    let flag (f : Bool) : Byte := if f then 0 else 1
    let badField := s.answered { kind := 0x51, payload := [3, 0x34] }
    (∀ sect : Byte, ∃ reply, exec (.status [sect, lo, hi]) s = .next (s.answered reply))
    ∧ (∀ sect : Byte, 4 < sect.toNat → exec (.status [sect, lo, hi]) s = .next badField)
    ∧ (1 < lo.toNat + 256 * hi.toNat → exec (.status [1, lo, hi]) s = .next badField)
    ∧ exec (.status [0, lo, hi]) s = .next (s.answered
        { kind := 0x53
          payload := [0] ++ leBytes 6 s.time.sfc ++ leBytes 4 s.time.fod
            ++ [match s.time.rate with | .r25 => 25 | .r30 => 30,
                match s.time.source with | .reference => 0 | .internal => 1,
                match s.time.lock with | .search => 0 | .verify => 1 | .locked => 2]
            ++ optional 4 s.time.candidate ++ leBytes 1 s.time.misses ++ leBytes 1 s.schedule.length
            ++ (match s.schedule with
              | [] => List.replicate 8 0xFF
              | e :: _ => leBytes 6 e.target ++ leBytes 1 e.cue.kind.code ++ leBytes 1 e.cue.tag)
            ++ leBytes 1 s.supervisionInterval ++ optional 6 (supervisionRestarted s) })
    ∧ (∀ l : LaneId, ∃ items, exec (.status [1, BitVec.ofNat 8 (laneNumber l), 0]) s = .next (s.answered
        { kind := 0x53
          payload := [1] ++ items
            ++ (let c := (s.lane l).counters
                [c.released, c.cut, c.stale, c.discarded, c.suppressed, c.overlap, c.late].flatMap (leBytes 2)) }))
    ∧ exec (.status [2, lo, hi]) s = .next (s.answered
        { kind := 0x53
          payload := [2] ++ ([.w0, .w1, .w2, .w3] : List WriterId).flatMap fun w =>
            let x := s.writer w
            [match x.role with | .idle => 0 | .onAir _ => 1 | .standby _ => 2,
              match x.role with
                | .idle => 0xFF
                | .onAir l => BitVec.ofNat 8 (laneNumber l)
                | .standby l => BitVec.ofNat 8 (laneNumber l)]
              ++ leBytes 2 x.lag ++ leBytes 1 x.staging.length ++ optional 6 (x.staging.head?.map Staged.arrival)
              ++ [flag x.marks.brk] ++ optional 2 (x.marks.speaker.map BitVec.toNat) ++ [flag x.overflowReported]
              ++ leBytes 2 x.overflows })
    ∧ exec (.status [4, lo, hi]) s = .next (s.answered
        { kind := 0x53
          payload := [4, BitVec.ofNat 8 s.partAddress]
            ++ ([.writer .w0, .writer .w1, .writer .w2, .writer .w3, .automation, .inserter .lane0, .inserter .lane1]
              : List Link).flatMap fun k =>
                leBytes 2 (s.heard.link k).good ++ leBytes 2 (s.heard.link k).checks ++ leBytes 2 (s.heard.link k).aborts
                  ++ leBytes 2 (s.heard.link k).sizes })

/-- CLEAR-COUNTERS sets every counter of the part to 0 and keeps everything else. -/
def Obligations.ClearCountersZeroes : Prop :=
  ∀ (s : State), s.canAnswer →
    ∃ t, exec (.clearCounters []) s = .next t
      ∧ t = { s with lanes := t.lanes, writers := t.writers, links := t.links
                     supervisionExpiry := supervisionRestarted s }
      ∧ (∀ l, t.lane l = { s.lane l with counters := ⟨0, 0, 0, 0, 0, 0, 0⟩ })
      ∧ (∀ w, t.writer w = { s.writer w with overflows := 0 })
      ∧ ∀ k, t.link k = { (s.answered (ackOf 0x35 none)).link k with good := 0, checks := 0, aborts := 0, sizes := 0 }

/-- ENGINE-RESET returns the operational state of every block to its reset value and keeps configuration and script
memory; one report is left. A page that a COMMIT is writing becomes INVALID and its buffer unlocked, and every other page keeps its
state. `nextRef` is the model's (log entry 4). -/
def Obligations.EngineResetValues : Prop :=
  ∀ (s : State), s.canAnswer →
    ∃ t, exec (.engineReset []) s = .next t
      ∧ t = { s with writers := t.writers, lanes := t.lanes, following := false, followedSerial := none
                     followedStatus := none, schedule := [], supervisionExpiry := supervisionRestarted s
                     store := t.store, reports := [s.note .engineReset none none none], reportOverflow := false
                     links := t.links }
      ∧ (∀ w, t.writer w = { s.writer w with
          role := .idle, staging := [], marks := { brk := false, speaker := none }, overflowReported := false })
      ∧ (∀ l, t.lane l = { s.lane l with
          state := .stopped, source := .live, frozen := false, held := false, builder := emptyBuilder 0 false
          engine := emptyEngine (s.lane l).engine.nextRef, display := displayReset s.time.sfc
          deck := bareDeck .empty none })
      ∧ t.store.engine = .idle ∧ t.store.text = s.store.text ∧ t.store.segments = s.store.segments
      ∧ t.store.lastCompare = s.store.lastCompare
      ∧ (∀ p, p < 512 → t.store.page p
          = if s.store.engine = .commit .bufA p ∨ s.store.engine = .commit .bufB p then .invalid else s.store.page p)
      ∧ (∀ b, (t.store.buffer b).chars = (s.store.buffer b).chars
        ∧ ((t.store.buffer b).locked = true ↔
          (s.store.buffer b).locked = true ∧ ∀ p, s.store.engine ≠ .commit b p))
      ∧ ((∀ b, (s.store.buffer b).locked = true → ∃ p, s.store.engine = .commit b p) →
        ∀ b, (t.store.buffer b).locked = false)
      ∧ t.links.automation = (linksAnswered s.links (ackOf 0x36 none)).automation
      ∧ t.links.inserters = s.links.inserters
      ∧ ∀ w, t.link (.writer w) = { s.link (.writer w) with
          waiting :=
            if (s.writer w).role = .idle then (s.link (.writer w)).waiting
            else (s.link (.writer w)).waiting.filter (fun f => decide (f.kind ≠ 0x18)) ++ [roleFrame w (t.writer w)] }

/-! ## Inserters -/

/-- An inserter request on a RUNNING lane releases a due next image, and the head of the queue is composed over the image that
has come to air; or it blanks an image that has stood for Hclear; either is answered with DISPLAY. A request that does
neither (the lane FROZEN, or nothing due for release and nothing to blank) changes only the changed flag, and without a
change is answered with UNCHANGED. A request that finds two replies unsent is only counted. On a STOPPED lane it is answered from
the blank image, and on lane 1 while FOLLOWING from lane 0's. With the alignment check ON its word is evaluated first, and
the request is otherwise served as with the check OFF. The form of the word is R182's; the F that judges it right after a
SET-FRAME-RATE is log entry 26. -/
def Obligations.InserterRequestIsServed : Prop :=
  (∀ (s : State) (l : LaneId) (p : List Byte), 2 ≤ (s.link (.inserter l)).waiting.length →
    exec (.inserterRequest l p) s = .next { s with links := linksCounted s.links (.inserter l) })
  ∧ ∀ (s : State) (l : LaneId) (h m n f : Byte), (s.link (.inserter l)).waiting.length < 2 →
    ((s.lane l).params.align = false → (l = .lane1 → s.following = false) →
      ((s.lane l).state = .running →
        (∀ r, (s.lane l).frozen = false → (s.lane l).held = false → (s.lane l).display.nextReady = true →
          (s.lane l).display.next.release = some r → r ≤ s.time.sfc → (s.lane l).feedsNothing →
          exec (.inserterRequest l [h, m, n, f]) s = .next
            (let ln := (s.lane l).released s.time.sfc
             let d := (s.lane l).display.releasedAt s.time.sfc
             { (s.setLane l { ln with display := { ln.display with changed := false } }) with
               links := linksServed s.links l
                 (displayFrame l ((s.lane l).shownFlags false d.alignFault) d.serial d.air) }))
        ∧ ((s.lane l).frozen = false → (s.lane l).display.air.rows ≠ [] →
            (s.lane l).display.onAir + (s.lane l).params.hClear ≤ s.time.sfc →
            ((s.lane l).held = true ∨ (s.lane l).display.nextReady = false
              ∨ ∃ r, (s.lane l).display.next.release = some r ∧ s.time.sfc < r) →
          exec (.inserterRequest l [h, m, n, f]) s = .next
            (let d := (s.lane l).display.blankedAt (s.lane l).params.mode
             { (s.setLane l { s.lane l with display := { d with changed := false } }) with
               links := linksServed s.links l
                 (displayFrame l ((s.lane l).shownFlags false d.alignFault) d.serial d.air) }))
        ∧ (((s.lane l).frozen = true
              ∨ (((s.lane l).held = true ∨ (s.lane l).display.nextReady = false
                  ∨ ∃ r, (s.lane l).display.next.release = some r ∧ s.time.sfc < r)
                ∧ ((s.lane l).display.air.rows = []
                  ∨ s.time.sfc < (s.lane l).display.onAir + (s.lane l).params.hClear))) →
            (s.lane l).display.air.serial = some (s.lane l).display.serial →
          exec (.inserterRequest l [h, m, n, f]) s = .next
            (let d := (s.lane l).display
             let flags := (s.lane l).shownFlags false d.alignFault
             if d.changed = true ∨ (s.lane l).params.reply = .everyFrame then
               { s.setLane l { s.lane l with display := { d with changed := false } } with
                 links := linksServed s.links l (displayFrame l flags d.serial d.air) }
             else { s with links := linksServed s.links l (unchangedFrame l flags d.serial) })))
      ∧ ((s.lane l).state = .stopped → (s.lane l).display.air.serial = some (s.lane l).display.serial →
        exec (.inserterRequest l [h, m, n, f]) s = .next
          (let d := (s.lane l).display
           let flags := (s.lane l).shownFlags false d.alignFault
           if d.changed = true then
             { s.setLane l { s.lane l with display := { d with changed := false } } with
               links := linksServed s.links l (displayFrame l flags d.serial d.air) }
           else { s with links := linksServed s.links l (unchangedFrame l flags d.serial) })))
    ∧ ((s.lane l).params.align = false → l = .lane1 → s.following = true →
        (s.lane .lane0).display.air.serial = some (s.lane .lane0).display.serial →
      exec (.inserterRequest l [h, m, n, f]) s = .next
        (let d := (s.lane .lane0).display
         let own := (s.lane .lane1).display
         let flags := (s.lane .lane0).shownFlags true own.alignFault
         let status : FollowedStatus :=
           { running := decide ((s.lane .lane0).state = .running), frozen := (s.lane .lane0).frozen
             held := (s.lane .lane0).held, script := decide ((s.lane .lane0).source = .script) }
         if own.changed = true ∨ (s.lane .lane1).params.reply = .everyFrame ∨ s.followedSerial ≠ some d.serial
             ∨ s.followedStatus ≠ some status then
           { s.setLane .lane1 { s.lane .lane1 with display := { own with changed := false } } with
             followedSerial := some d.serial, followedStatus := some status
             links := linksServed s.links .lane1 (displayFrame .lane1 flags d.serial d.air) }
         else { s with links := linksServed s.links .lane1 (unchangedFrame .lane1 flags d.serial) }))
    ∧ ((s.lane l).params.align = true → s.canReport →
      ∃ t, exec (.inserterRequest l [h, m, n, f])
            (let word := timecodeFrames { hh := h, mm := m, ss := n, ff := f } s.time.rate
             { s.setLane l { s.lane l with
                 params := { (s.lane l).params with align := false }
                 display := (s.lane l).display.evaluated (s.wordMatches l word) } with
               reports := s.reports ++ s.evaluationReports l word }) = .next t
        ∧ exec (.inserterRequest l [h, m, n, f]) s
          = .next (t.setLane l { t.lane l with params := { (t.lane l).params with align := true } }))

/-- An inserter frame of another kind, or a REQUEST of another length, is answered with REFUSED and changes nothing
else; with two replies unsent it is only counted. -/
def Obligations.InserterFramesRefused : Prop :=
  ∀ (s : State) (l : LaneId) (kind : Byte) (p : List Byte), (kind ≠ 0x60 ∨ p.length ≠ 4) →
    exec (.inserterFrameRefused l kind p) s = .next
      (if 2 ≤ (s.link (.inserter l)).waiting.length then { s with links := linksCounted s.links (.inserter l) }
      else
        { s with links := s.links.set (.inserter l) { s.link (.inserter l) with
            rx := Receiver.inFrame, good := min ((s.link (.inserter l)).good + 1) 65535
            waiting := (s.link (.inserter l)).waiting
              ++ [{ kind := 0x51, payload := [if kind = 0x60 then 2 else 1, kind] }] } })
end

