-- ==== Sys2Proof/Laws/State.lean ====
section
/-! SUPPORT. What each update of the state leaves in each field, so that no later proof unfolds a record update. -/

namespace Sys2Proof.Machine

/-! ## Getting and setting by lane, writer and link -/

@[simp] theorem PerLane.get_set_self {α : Type} (p : PerLane α) (l : LaneId) (x : α) : (p.set l x).get l = x := by
  cases l <;> rfl

theorem PerLane.get_set_of_ne {α : Type} (p : PerLane α) {l m : LaneId} (x : α) (h : m ≠ l) :
    (p.set l x).get m = p.get m := by
  cases l <;> cases m <;> first | rfl | exact absurd rfl h

@[simp] theorem PerLane.set_get {α : Type} (p : PerLane α) (l : LaneId) : p.set l (p.get l) = p := by cases l <;> rfl

@[simp] theorem PerLane.set_set {α : Type} (p : PerLane α) (l : LaneId) (x y : α) : (p.set l x).set l y = p.set l y := by
  cases l <;> rfl

@[simp] theorem PerWriter.get_set_self {α : Type} (p : PerWriter α) (w : WriterId) (x : α) : (p.set w x).get w = x := by
  cases w <;> rfl

theorem PerWriter.get_set_of_ne {α : Type} (p : PerWriter α) {w v : WriterId} (x : α) (h : v ≠ w) :
    (p.set w x).get v = p.get v := by
  cases w <;> cases v <;> first | rfl | exact absurd rfl h

@[simp] theorem PerWriter.set_get {α : Type} (p : PerWriter α) (w : WriterId) : p.set w (p.get w) = p := by
  cases w <;> rfl

@[simp] theorem PerWriter.set_set {α : Type} (p : PerWriter α) (w : WriterId) (x y : α) :
    (p.set w x).set w y = p.set w y := by cases w <;> rfl

@[simp] theorem Links.get_set_self (k : Links) (x : Link) (v : LinkState) : (k.set x v).get x = v := by
  cases x <;> simp [Links.get, Links.set]

theorem Links.get_set_of_ne (k : Links) {x y : Link} (v : LinkState) (h : y ≠ x) : (k.set x v).get y = k.get y := by
  cases x <;> cases y <;> simp_all [Links.get, Links.set, PerWriter.get_set_of_ne, PerLane.get_set_of_ne]

@[simp] theorem Links.set_get (k : Links) (x : Link) : k.set x (k.get x) = k := by
  cases x <;> simp [Links.get, Links.set]

@[simp] theorem Links.set_set (k : Links) (x : Link) (v u : LinkState) : (k.set x v).set x u = k.set x u := by
  cases x <;> simp [Links.set]

@[simp] theorem PerLane.get_lane0 {α : Type} (p : PerLane α) : p.get .lane0 = p.lane0 := rfl
@[simp] theorem PerLane.get_lane1 {α : Type} (p : PerLane α) : p.get .lane1 = p.lane1 := rfl
@[simp] theorem PerLane.set_lane0_eq {α : Type} (p : PerLane α) (x : α) : p.set .lane0 x = { p with lane0 := x } := rfl
@[simp] theorem PerLane.set_lane1_eq {α : Type} (p : PerLane α) (x : α) : p.set .lane1 x = { p with lane1 := x } := rfl

/-! ## The state -/

theorem State.lane_eq (s : State) (l : LaneId) : s.lane l = s.lanes.get l := rfl
theorem State.writer_eq (s : State) (w : WriterId) : s.writer w = s.writers.get w := rfl
theorem State.link_eq (s : State) (k : Link) : s.link k = s.links.get k := rfl

@[simp] theorem State.lane_setLane_self (s : State) (l : LaneId) (x : Lane) : (s.setLane l x).lane l = x :=
  PerLane.get_set_self ..

theorem State.lane_setLane_of_ne (s : State) {l m : LaneId} (x : Lane) (h : m ≠ l) : (s.setLane l x).lane m = s.lane m :=
  PerLane.get_set_of_ne _ x h

@[simp] theorem State.setLane_lane (s : State) (l : LaneId) : s.setLane l (s.lane l) = s := by
  simp [State.setLane, State.lane]

@[simp] theorem State.setLane_setLane (s : State) (l : LaneId) (x y : Lane) :
    (s.setLane l x).setLane l y = s.setLane l y := by simp [State.setLane]

@[simp] theorem State.writer_setWriter_self (s : State) (w : WriterId) (x : Writer) : (s.setWriter w x).writer w = x :=
  PerWriter.get_set_self ..

theorem State.writer_setWriter_of_ne (s : State) {w v : WriterId} (x : Writer) (h : v ≠ w) :
    (s.setWriter w x).writer v = s.writer v := PerWriter.get_set_of_ne _ x h

@[simp] theorem State.setWriter_writer (s : State) (w : WriterId) : s.setWriter w (s.writer w) = s := by
  simp [State.setWriter, State.writer]

@[simp] theorem State.setWriter_setWriter (s : State) (w : WriterId) (x y : Writer) :
    (s.setWriter w x).setWriter w y = s.setWriter w y := by simp [State.setWriter]

@[simp] theorem State.link_setLink_self (s : State) (k : Link) (x : LinkState) : (s.setLink k x).link k = x :=
  Links.get_set_self ..

theorem State.link_setLink_of_ne (s : State) {k j : Link} (x : LinkState) (h : j ≠ k) :
    (s.setLink k x).link j = s.link j := Links.get_set_of_ne _ x h

@[simp] theorem State.setLink_link (s : State) (k : Link) : s.setLink k (s.link k) = s := by
  simp [State.setLink, State.link]

@[simp] theorem State.setLink_setLink (s : State) (k : Link) (x y : LinkState) :
    (s.setLink k x).setLink k y = s.setLink k y := by simp [State.setLink]

@[simp] theorem State.lane_setWriter (s : State) (w : WriterId) (x : Writer) (l : LaneId) :
    (s.setWriter w x).lane l = s.lane l := rfl
@[simp] theorem State.lane_setLink (s : State) (k : Link) (x : LinkState) (l : LaneId) :
    (s.setLink k x).lane l = s.lane l := rfl
@[simp] theorem State.writer_setLane (s : State) (l : LaneId) (x : Lane) (w : WriterId) :
    (s.setLane l x).writer w = s.writer w := rfl
@[simp] theorem State.writer_setLink (s : State) (k : Link) (x : LinkState) (w : WriterId) :
    (s.setLink k x).writer w = s.writer w := rfl
@[simp] theorem State.link_setLane (s : State) (l : LaneId) (x : Lane) (k : Link) :
    (s.setLane l x).link k = s.link k := rfl
@[simp] theorem State.link_setWriter (s : State) (w : WriterId) (x : Writer) (k : Link) :
    (s.setWriter w x).link k = s.link k := rfl

@[simp] theorem State.setLane_pending (s : State) (l : LaneId) (x : Lane) : (s.setLane l x).pending = s.pending := rfl
@[simp] theorem State.setLane_time (s : State) (l : LaneId) (x : Lane) : (s.setLane l x).time = s.time := rfl
@[simp] theorem State.setLane_writers (s : State) (l : LaneId) (x : Lane) : (s.setLane l x).writers = s.writers := rfl
@[simp] theorem State.setLane_styles (s : State) (l : LaneId) (x : Lane) : (s.setLane l x).styles = s.styles := rfl
@[simp] theorem State.setLane_styleLimit (s : State) (l : LaneId) (x : Lane) : (s.setLane l x).styleLimit = s.styleLimit := rfl
@[simp] theorem State.setLane_following (s : State) (l : LaneId) (x : Lane) : (s.setLane l x).following = s.following := rfl
@[simp] theorem State.setLane_followedSerial (s : State) (l : LaneId) (x : Lane) : (s.setLane l x).followedSerial = s.followedSerial := rfl
@[simp] theorem State.setLane_followedStatus (s : State) (l : LaneId) (x : Lane) : (s.setLane l x).followedStatus = s.followedStatus := rfl
@[simp] theorem State.setLane_schedule (s : State) (l : LaneId) (x : Lane) : (s.setLane l x).schedule = s.schedule := rfl
@[simp] theorem State.setLane_supervisionInterval (s : State) (l : LaneId) (x : Lane) : (s.setLane l x).supervisionInterval = s.supervisionInterval := rfl
@[simp] theorem State.setLane_supervisionExpiry (s : State) (l : LaneId) (x : Lane) : (s.setLane l x).supervisionExpiry = s.supervisionExpiry := rfl
@[simp] theorem State.setLane_store (s : State) (l : LaneId) (x : Lane) : (s.setLane l x).store = s.store := rfl
@[simp] theorem State.setLane_reports (s : State) (l : LaneId) (x : Lane) : (s.setLane l x).reports = s.reports := rfl
@[simp] theorem State.setLane_reportOverflow (s : State) (l : LaneId) (x : Lane) : (s.setLane l x).reportOverflow = s.reportOverflow := rfl
@[simp] theorem State.setLane_links (s : State) (l : LaneId) (x : Lane) : (s.setLane l x).links = s.links := rfl
@[simp] theorem State.setLane_partAddress (s : State) (l : LaneId) (x : Lane) : (s.setLane l x).partAddress = s.partAddress := rfl

@[simp] theorem State.setWriter_pending (s : State) (w : WriterId) (x : Writer) : (s.setWriter w x).pending = s.pending := rfl
@[simp] theorem State.setWriter_time (s : State) (w : WriterId) (x : Writer) : (s.setWriter w x).time = s.time := rfl
@[simp] theorem State.setWriter_styles (s : State) (w : WriterId) (x : Writer) : (s.setWriter w x).styles = s.styles := rfl
@[simp] theorem State.setWriter_styleLimit (s : State) (w : WriterId) (x : Writer) : (s.setWriter w x).styleLimit = s.styleLimit := rfl
@[simp] theorem State.setWriter_lanes (s : State) (w : WriterId) (x : Writer) : (s.setWriter w x).lanes = s.lanes := rfl
@[simp] theorem State.setWriter_following (s : State) (w : WriterId) (x : Writer) : (s.setWriter w x).following = s.following := rfl
@[simp] theorem State.setWriter_followedSerial (s : State) (w : WriterId) (x : Writer) : (s.setWriter w x).followedSerial = s.followedSerial := rfl
@[simp] theorem State.setWriter_followedStatus (s : State) (w : WriterId) (x : Writer) : (s.setWriter w x).followedStatus = s.followedStatus := rfl
@[simp] theorem State.setWriter_schedule (s : State) (w : WriterId) (x : Writer) : (s.setWriter w x).schedule = s.schedule := rfl
@[simp] theorem State.setWriter_supervisionInterval (s : State) (w : WriterId) (x : Writer) : (s.setWriter w x).supervisionInterval = s.supervisionInterval := rfl
@[simp] theorem State.setWriter_supervisionExpiry (s : State) (w : WriterId) (x : Writer) : (s.setWriter w x).supervisionExpiry = s.supervisionExpiry := rfl
@[simp] theorem State.setWriter_store (s : State) (w : WriterId) (x : Writer) : (s.setWriter w x).store = s.store := rfl
@[simp] theorem State.setWriter_reports (s : State) (w : WriterId) (x : Writer) : (s.setWriter w x).reports = s.reports := rfl
@[simp] theorem State.setWriter_reportOverflow (s : State) (w : WriterId) (x : Writer) : (s.setWriter w x).reportOverflow = s.reportOverflow := rfl
@[simp] theorem State.setWriter_links (s : State) (w : WriterId) (x : Writer) : (s.setWriter w x).links = s.links := rfl
@[simp] theorem State.setWriter_partAddress (s : State) (w : WriterId) (x : Writer) : (s.setWriter w x).partAddress = s.partAddress := rfl

@[simp] theorem State.setLink_pending (s : State) (k : Link) (x : LinkState) : (s.setLink k x).pending = s.pending := rfl
@[simp] theorem State.setLink_time (s : State) (k : Link) (x : LinkState) : (s.setLink k x).time = s.time := rfl
@[simp] theorem State.setLink_writers (s : State) (k : Link) (x : LinkState) : (s.setLink k x).writers = s.writers := rfl
@[simp] theorem State.setLink_styles (s : State) (k : Link) (x : LinkState) : (s.setLink k x).styles = s.styles := rfl
@[simp] theorem State.setLink_styleLimit (s : State) (k : Link) (x : LinkState) : (s.setLink k x).styleLimit = s.styleLimit := rfl
@[simp] theorem State.setLink_lanes (s : State) (k : Link) (x : LinkState) : (s.setLink k x).lanes = s.lanes := rfl
@[simp] theorem State.setLink_following (s : State) (k : Link) (x : LinkState) : (s.setLink k x).following = s.following := rfl
@[simp] theorem State.setLink_followedSerial (s : State) (k : Link) (x : LinkState) : (s.setLink k x).followedSerial = s.followedSerial := rfl
@[simp] theorem State.setLink_followedStatus (s : State) (k : Link) (x : LinkState) : (s.setLink k x).followedStatus = s.followedStatus := rfl
@[simp] theorem State.setLink_schedule (s : State) (k : Link) (x : LinkState) : (s.setLink k x).schedule = s.schedule := rfl
@[simp] theorem State.setLink_supervisionInterval (s : State) (k : Link) (x : LinkState) : (s.setLink k x).supervisionInterval = s.supervisionInterval := rfl
@[simp] theorem State.setLink_supervisionExpiry (s : State) (k : Link) (x : LinkState) : (s.setLink k x).supervisionExpiry = s.supervisionExpiry := rfl
@[simp] theorem State.setLink_store (s : State) (k : Link) (x : LinkState) : (s.setLink k x).store = s.store := rfl
@[simp] theorem State.setLink_reports (s : State) (k : Link) (x : LinkState) : (s.setLink k x).reports = s.reports := rfl
@[simp] theorem State.setLink_reportOverflow (s : State) (k : Link) (x : LinkState) : (s.setLink k x).reportOverflow = s.reportOverflow := rfl
@[simp] theorem State.setLink_partAddress (s : State) (k : Link) (x : LinkState) : (s.setLink k x).partAddress = s.partAddress := rfl

end Sys2Proof.Machine
end

