-- ==== Sys2Proof/Laws/Reports.lean ====
section
/-! SUPPORT. What queueing reports can do (R187): the queue takes them in order while it has room, and nothing else of the
part changes. -/

namespace Sys2Proof.Machine

/-- R187: the queue after one report. -/
theorem State.queueReport_reports (s : State) (r : Report) :
    (s.queueReport r).reports = if s.reports.length < 32 then s.reports ++ [r] else s.reports := by
  unfold State.queueReport Config.reportCapacity; split <;> rfl

/-- R187: the overflow mark after one report. -/
theorem State.queueReport_overflow (s : State) (r : Report) :
    (s.queueReport r).reportOverflow = if s.reports.length < 32 then s.reportOverflow else true := by
  unfold State.queueReport Config.reportCapacity; split <;> rfl

/-- With room, a report joins the end of the queue and nothing else changes. -/
theorem State.queueReport_of_room (s : State) (r : Report) (h : s.reports.length < 32) :
    s.queueReport r = { s with reports := s.reports ++ [r] } := by
  simp [State.queueReport, Config.reportCapacity, h]

/-- Without room, the overflow mark is set and nothing else changes. -/
theorem State.queueReport_of_full (s : State) (r : Report) (h : ¬ s.reports.length < 32) :
    s.queueReport r = { s with reportOverflow := true } := by
  simp [State.queueReport, Config.reportCapacity, h]

@[simp] theorem State.queueReports_nil (s : State) : s.queueReports [] = s := rfl

@[simp] theorem State.queueReports_cons (s : State) (r : Report) (rs : List Report) :
    s.queueReports (r :: rs) = (s.queueReport r).queueReports rs := rfl

theorem State.queueReports_append (s : State) (rs qs : List Report) :
    s.queueReports (rs ++ qs) = (s.queueReports rs).queueReports qs := List.foldl_append ..

/-- Queueing reports changes the report queue and the overflow mark alone. -/
theorem State.queueReports_eq (s : State) (rs : List Report) :
    s.queueReports rs
      = { s with reports := (s.queueReports rs).reports, reportOverflow := (s.queueReports rs).reportOverflow } := by
  induction rs generalizing s with
  | nil => rfl
  | cons r rs ih =>
    rw [State.queueReports_cons, ih (s.queueReport r)]
    by_cases h : s.reports.length < 32
    · rw [State.queueReport_of_room s r h]
    · rw [State.queueReport_of_full s r h]

/-- The queue keeps its capacity. -/
theorem State.queueReports_length (s : State) (rs : List Report) (h : s.reports.length ≤ 32) :
    (s.queueReports rs).reports.length ≤ 32 := by
  induction rs generalizing s with
  | nil => exact h
  | cons r rs ih =>
    apply ih
    rw [State.queueReport_reports]
    split
    · rw [List.length_append, List.length_singleton]; omega
    · exact h

/-- With room for all of them, the reports join the end of the queue in order and nothing else changes. -/
theorem State.queueReports_of_room (s : State) (rs : List Report) (h : s.reports.length + rs.length ≤ 32) :
    s.queueReports rs = { s with reports := s.reports ++ rs } := by
  induction rs generalizing s with
  | nil => simp
  | cons r rs ih =>
    simp only [List.length_cons] at h
    rw [State.queueReports_cons, State.queueReport_of_room s r (by omega), ih]
    · simp
    · simp; omega

@[simp] theorem State.queueReport_pending (s : State) (r : Report) : (s.queueReport r).pending = s.pending := by
  unfold State.queueReport; split <;> rfl
@[simp] theorem State.queueReport_time (s : State) (r : Report) : (s.queueReport r).time = s.time := by
  unfold State.queueReport; split <;> rfl
@[simp] theorem State.queueReport_writers (s : State) (r : Report) : (s.queueReport r).writers = s.writers := by
  unfold State.queueReport; split <;> rfl
@[simp] theorem State.queueReport_styles (s : State) (r : Report) : (s.queueReport r).styles = s.styles := by
  unfold State.queueReport; split <;> rfl
@[simp] theorem State.queueReport_styleLimit (s : State) (r : Report) : (s.queueReport r).styleLimit = s.styleLimit := by
  unfold State.queueReport; split <;> rfl
@[simp] theorem State.queueReport_lanes (s : State) (r : Report) : (s.queueReport r).lanes = s.lanes := by
  unfold State.queueReport; split <;> rfl
@[simp] theorem State.queueReport_following (s : State) (r : Report) : (s.queueReport r).following = s.following := by
  unfold State.queueReport; split <;> rfl
@[simp] theorem State.queueReport_followedSerial (s : State) (r : Report) : (s.queueReport r).followedSerial = s.followedSerial := by
  unfold State.queueReport; split <;> rfl
@[simp] theorem State.queueReport_followedStatus (s : State) (r : Report) : (s.queueReport r).followedStatus = s.followedStatus := by
  unfold State.queueReport; split <;> rfl
@[simp] theorem State.queueReport_schedule (s : State) (r : Report) : (s.queueReport r).schedule = s.schedule := by
  unfold State.queueReport; split <;> rfl
@[simp] theorem State.queueReport_supervisionInterval (s : State) (r : Report) : (s.queueReport r).supervisionInterval = s.supervisionInterval := by
  unfold State.queueReport; split <;> rfl
@[simp] theorem State.queueReport_supervisionExpiry (s : State) (r : Report) : (s.queueReport r).supervisionExpiry = s.supervisionExpiry := by
  unfold State.queueReport; split <;> rfl
@[simp] theorem State.queueReport_store (s : State) (r : Report) : (s.queueReport r).store = s.store := by
  unfold State.queueReport; split <;> rfl
@[simp] theorem State.queueReport_links (s : State) (r : Report) : (s.queueReport r).links = s.links := by
  unfold State.queueReport; split <;> rfl
@[simp] theorem State.queueReport_partAddress (s : State) (r : Report) : (s.queueReport r).partAddress = s.partAddress := by
  unfold State.queueReport; split <;> rfl

@[simp] theorem State.queueReports_pending (s : State) (rs : List Report) : (s.queueReports rs).pending = s.pending := by
  rw [State.queueReports_eq]
@[simp] theorem State.queueReports_time (s : State) (rs : List Report) : (s.queueReports rs).time = s.time := by
  rw [State.queueReports_eq]
@[simp] theorem State.queueReports_writers (s : State) (rs : List Report) : (s.queueReports rs).writers = s.writers := by
  rw [State.queueReports_eq]
@[simp] theorem State.queueReports_styles (s : State) (rs : List Report) : (s.queueReports rs).styles = s.styles := by
  rw [State.queueReports_eq]
@[simp] theorem State.queueReports_styleLimit (s : State) (rs : List Report) : (s.queueReports rs).styleLimit = s.styleLimit := by
  rw [State.queueReports_eq]
@[simp] theorem State.queueReports_lanes (s : State) (rs : List Report) : (s.queueReports rs).lanes = s.lanes := by
  rw [State.queueReports_eq]
@[simp] theorem State.queueReports_following (s : State) (rs : List Report) : (s.queueReports rs).following = s.following := by
  rw [State.queueReports_eq]
@[simp] theorem State.queueReports_followedSerial (s : State) (rs : List Report) : (s.queueReports rs).followedSerial = s.followedSerial := by
  rw [State.queueReports_eq]
@[simp] theorem State.queueReports_followedStatus (s : State) (rs : List Report) : (s.queueReports rs).followedStatus = s.followedStatus := by
  rw [State.queueReports_eq]
@[simp] theorem State.queueReports_schedule (s : State) (rs : List Report) : (s.queueReports rs).schedule = s.schedule := by
  rw [State.queueReports_eq]
@[simp] theorem State.queueReports_supervisionInterval (s : State) (rs : List Report) : (s.queueReports rs).supervisionInterval = s.supervisionInterval := by
  rw [State.queueReports_eq]
@[simp] theorem State.queueReports_supervisionExpiry (s : State) (rs : List Report) : (s.queueReports rs).supervisionExpiry = s.supervisionExpiry := by
  rw [State.queueReports_eq]
@[simp] theorem State.queueReports_store (s : State) (rs : List Report) : (s.queueReports rs).store = s.store := by
  rw [State.queueReports_eq]
@[simp] theorem State.queueReports_links (s : State) (rs : List Report) : (s.queueReports rs).links = s.links := by
  rw [State.queueReports_eq]
@[simp] theorem State.queueReports_partAddress (s : State) (rs : List Report) : (s.queueReports rs).partAddress = s.partAddress := by
  rw [State.queueReports_eq]

@[simp] theorem State.queueReports_lane (s : State) (rs : List Report) (l : LaneId) :
    (s.queueReports rs).lane l = s.lane l := by simp [State.lane]
@[simp] theorem State.queueReports_writer (s : State) (rs : List Report) (w : WriterId) :
    (s.queueReports rs).writer w = s.writer w := by simp [State.writer]
@[simp] theorem State.queueReports_link (s : State) (rs : List Report) (k : Link) :
    (s.queueReports rs).link k = s.link k := by simp [State.link]

/-! ## A lane at work -/

@[simp] theorem LaneRun.edit_lane (r : LaneRun) (f : Lane → Lane) : (r.edit f).lane = f r.lane := rfl
@[simp] theorem LaneRun.edit_out (r : LaneRun) (f : Lane → Lane) : (r.edit f).out = r.out := rfl
@[simp] theorem LaneRun.emit_lane (r : LaneRun) (env : LaneEnv) (k : ReportKind) (w : Option WriterId) (v : Option Nat) :
    (r.emit env k w v).lane = r.lane := rfl
@[simp] theorem LaneRun.emit_out (r : LaneRun) (env : LaneEnv) (k : ReportKind) (w : Option WriterId) (v : Option Nat) :
    (r.emit env k w v).out
      = r.out ++ [{ kind := k, lane := some env.lane, writer := w, value := v, stamp := env.sfc }] := rfl

/-- What a lane's blocks at work can do to the part: they change that lane, the report queue and the overflow mark. -/
theorem State.onLane_eq (s : State) (l : LaneId) (act : LaneEnv → LaneRun → LaneRun) :
    s.onLane l act
      = { s.setLane l (act (s.env l) { lane := s.lane l, out := [] }).lane with
          reports := (s.onLane l act).reports, reportOverflow := (s.onLane l act).reportOverflow } := by
  unfold State.onLane; rw [State.queueReports_eq]

/-- A lane whose blocks queue no report changes alone. -/
theorem State.onLane_of_quiet (s : State) (l : LaneId) (act : LaneEnv → LaneRun → LaneRun)
    (h : (act (s.env l) { lane := s.lane l, out := [] }).out = []) :
    s.onLane l act = s.setLane l (act (s.env l) { lane := s.lane l, out := [] }).lane := by
  simp [State.onLane, h]

/-- A lane whose blocks change nothing and queue nothing leaves the part as it was. -/
@[simp] theorem State.onLane_id (s : State) (l : LaneId) : (s.onLane l fun _ r => r) = s := by
  simp [State.onLane]

@[simp] theorem State.onLane_lane_self (s : State) (l : LaneId) (act : LaneEnv → LaneRun → LaneRun) :
    (s.onLane l act).lane l = (act (s.env l) { lane := s.lane l, out := [] }).lane := by
  simp [State.onLane]

theorem State.onLane_lane_of_ne (s : State) {l m : LaneId} (act : LaneEnv → LaneRun → LaneRun) (h : m ≠ l) :
    (s.onLane l act).lane m = s.lane m := by
  simp [State.onLane, State.lane_setLane_of_ne s _ h]

@[simp] theorem State.onLane_pending (s : State) (l : LaneId) (act : LaneEnv → LaneRun → LaneRun) :
    (s.onLane l act).pending = s.pending := by simp [State.onLane]
@[simp] theorem State.onLane_time (s : State) (l : LaneId) (act : LaneEnv → LaneRun → LaneRun) :
    (s.onLane l act).time = s.time := by simp [State.onLane]
@[simp] theorem State.onLane_writers (s : State) (l : LaneId) (act : LaneEnv → LaneRun → LaneRun) :
    (s.onLane l act).writers = s.writers := by simp [State.onLane]
@[simp] theorem State.onLane_styles (s : State) (l : LaneId) (act : LaneEnv → LaneRun → LaneRun) :
    (s.onLane l act).styles = s.styles := by simp [State.onLane]
@[simp] theorem State.onLane_styleLimit (s : State) (l : LaneId) (act : LaneEnv → LaneRun → LaneRun) :
    (s.onLane l act).styleLimit = s.styleLimit := by simp [State.onLane]
@[simp] theorem State.onLane_following (s : State) (l : LaneId) (act : LaneEnv → LaneRun → LaneRun) :
    (s.onLane l act).following = s.following := by simp [State.onLane]
@[simp] theorem State.onLane_followedSerial (s : State) (l : LaneId) (act : LaneEnv → LaneRun → LaneRun) :
    (s.onLane l act).followedSerial = s.followedSerial := by simp [State.onLane]
@[simp] theorem State.onLane_followedStatus (s : State) (l : LaneId) (act : LaneEnv → LaneRun → LaneRun) :
    (s.onLane l act).followedStatus = s.followedStatus := by simp [State.onLane]
@[simp] theorem State.onLane_schedule (s : State) (l : LaneId) (act : LaneEnv → LaneRun → LaneRun) :
    (s.onLane l act).schedule = s.schedule := by simp [State.onLane]
@[simp] theorem State.onLane_supervisionInterval (s : State) (l : LaneId) (act : LaneEnv → LaneRun → LaneRun) :
    (s.onLane l act).supervisionInterval = s.supervisionInterval := by simp [State.onLane]
@[simp] theorem State.onLane_supervisionExpiry (s : State) (l : LaneId) (act : LaneEnv → LaneRun → LaneRun) :
    (s.onLane l act).supervisionExpiry = s.supervisionExpiry := by simp [State.onLane]
@[simp] theorem State.onLane_store (s : State) (l : LaneId) (act : LaneEnv → LaneRun → LaneRun) :
    (s.onLane l act).store = s.store := by simp [State.onLane]
@[simp] theorem State.onLane_links (s : State) (l : LaneId) (act : LaneEnv → LaneRun → LaneRun) :
    (s.onLane l act).links = s.links := by simp [State.onLane]
@[simp] theorem State.onLane_partAddress (s : State) (l : LaneId) (act : LaneEnv → LaneRun → LaneRun) :
    (s.onLane l act).partAddress = s.partAddress := by simp [State.onLane]
@[simp] theorem State.onLane_writer (s : State) (l : LaneId) (act : LaneEnv → LaneRun → LaneRun) (w : WriterId) :
    (s.onLane l act).writer w = s.writer w := by simp [State.writer]
@[simp] theorem State.onLane_link (s : State) (l : LaneId) (act : LaneEnv → LaneRun → LaneRun) (k : Link) :
    (s.onLane l act).link k = s.link k := by simp [State.link]

end Sys2Proof.Machine
end

