-- ==== Sys2Proof/Laws/Commands.lean ====
section
/-! SUPPORT. What the frames of the rows can do before and around their handlers: a writer's frame is counted, a request is
held back, refused for its length, or handed on and answered, and a cue acts on the lanes its mask addresses. -/

namespace Sys2Proof.Machine

/-! ## Good frames -/

/-- A writer's good frame opens the next frame and is counted (R173, R178). -/
theorem State.goodFrame_writer (s : State) (w : WriterId) : s.goodFrame (.writer w) = s.messaged w := by
  simp [State.goodFrame, State.countGood, State.frameClosed, State.messaged, linksCounted, State.setLink, State.link,
    saturate, Config.counterMax]

/-- An inserter's good frame opens the next frame and is counted (R173, R178). -/
theorem State.goodFrame_inserter (s : State) (l : LaneId) :
    (s.frameClosed (.inserter l)).countGood (.inserter l) = { s with links := linksCounted s.links (.inserter l) } := by
  simp [State.countGood, State.frameClosed, linksCounted, State.setLink, State.link, saturate, Config.counterMax]

/-- A good frame of link A opens the next frame, is counted and restarts supervision (R134, R173, R178). -/
theorem State.automationGood_frameClosed (s : State) : (s.frameClosed .automation).automationGood = s.heard := by
  unfold State.automationGood State.restartSupervision State.heard supervisionRestarted
  simp only [State.countGood, State.frameClosed, State.setLink, State.link, Links.get_set_self, Links.set_set,
    saturate, Config.counterMax, linksCounted]
  split <;> simp_all

@[simp] theorem State.messaged_writer (s : State) (w v : WriterId) : (s.messaged w).writer v = s.writer v := rfl
@[simp] theorem State.messaged_lane (s : State) (w : WriterId) (l : LaneId) : (s.messaged w).lane l = s.lane l := rfl
@[simp] theorem State.messaged_reports (s : State) (w : WriterId) : (s.messaged w).reports = s.reports := rfl
@[simp] theorem State.messaged_time (s : State) (w : WriterId) : (s.messaged w).time = s.time := rfl
@[simp] theorem State.messaged_styles (s : State) (w : WriterId) : (s.messaged w).styles = s.styles := rfl
@[simp] theorem State.messaged_styleLimit (s : State) (w : WriterId) : (s.messaged w).styleLimit = s.styleLimit := rfl
@[simp] theorem State.messaged_following (s : State) (w : WriterId) : (s.messaged w).following = s.following := rfl
@[simp] theorem State.messaged_running (s : State) (w : WriterId) (l : LaneId) :
    (s.messaged w).running l = s.running l := rfl
@[simp] theorem State.messaged_follows (s : State) (w : WriterId) (l : LaneId) :
    (s.messaged w).follows l = s.follows l := rfl
@[simp] theorem State.messaged_suppresses (s : State) (w : WriterId) (l : LaneId) :
    (s.messaged w).suppresses l = s.suppresses l := rfl
@[simp] theorem State.messaged_env (s : State) (w : WriterId) (l : LaneId) : (s.messaged w).env l = s.env l := rfl

@[simp] theorem State.heard_lane (s : State) (l : LaneId) : s.heard.lane l = s.lane l := rfl
@[simp] theorem State.heard_writer (s : State) (w : WriterId) : s.heard.writer w = s.writer w := rfl
@[simp] theorem State.heard_reports (s : State) : s.heard.reports = s.reports := rfl
@[simp] theorem State.heard_time (s : State) : s.heard.time = s.time := rfl
@[simp] theorem State.heard_store (s : State) : s.heard.store = s.store := rfl
@[simp] theorem State.heard_schedule (s : State) : s.heard.schedule = s.schedule := rfl
@[simp] theorem State.heard_following (s : State) : s.heard.following = s.following := rfl
@[simp] theorem State.heard_env (s : State) (l : LaneId) : s.heard.env l = s.env l := rfl
@[simp] theorem State.heard_running (s : State) (l : LaneId) : s.heard.running l = s.running l := rfl
@[simp] theorem State.heard_follows (s : State) (l : LaneId) : s.heard.follows l = s.follows l := rfl

/-! ## Requests (R180, R184) -/

/-- The links of a part whose frame on link A was counted. -/
theorem State.heard_waiting (s : State) : s.heard.links.automation.waiting = s.links.automation.waiting := rfl

/-- Link A is full exactly when it cannot answer (R180). -/
theorem State.repliesFull_heard (s : State) : s.heard.repliesFull .automation = decide (4 ≤ s.links.automation.waiting.length) :=
  rfl

/-- A request that finds four replies unsent is only counted and restarts supervision (R180). -/
theorem requestRow_of_full (kind : Byte) (p : List Byte) (h : List Byte → State → State × Reply) (s : State)
    (full : 4 ≤ s.links.automation.waiting.length) : requestRow kind p h s = s.heard := by
  simp [requestRow, State.request, State.automationGood_frameClosed, State.serve, State.repliesFull_heard, full]

/-- A request of a wrong length is refused with BAD_LENGTH (R184). -/
theorem requestRow_of_badLength (kind : Byte) (p : List Byte) (h : List Byte → State → State × Reply) (s : State)
    (room : s.canAnswer) (bad : requestLengthOk kind p.length = false) :
    requestRow kind p h s = s.heard.answer kind (.refused .badLength) := by
  have full : ¬ 4 ≤ s.links.automation.waiting.length := by unfold State.canAnswer at room; omega
  simp [requestRow, State.request, State.automationGood_frameClosed, State.serve, State.repliesFull_heard, full, bad]

/-- A request of a right length is handed on, and answered from the state it leaves (R184). -/
theorem requestRow_of_room (kind : Byte) (p : List Byte) (h : List Byte → State → State × Reply) (s : State)
    (room : s.canAnswer) (good : requestLengthOk kind p.length = true) :
    requestRow kind p h s = (h p s.heard).1.answer kind (h p s.heard).2 := by
  have full : ¬ 4 ≤ s.links.automation.waiting.length := by unfold State.canAnswer at room; omega
  simp [requestRow, State.request, State.automationGood_frameClosed, State.serve, State.repliesFull_heard, full, good]

/-- A request that is answered and does nothing else. -/
theorem State.heard_answer (s : State) (kind : Byte) (r : Reply) : s.heard.answer kind r = s.answered (r.frame kind) := rfl

/-- An ACK as the spec lays it out (R185). -/
theorem Reply.frame_ack (kind : Byte) (v : Option Nat) : (Reply.ack v).frame kind = ackOf kind v := by cases v <;> rfl

/-! ## Cues (R118, R120) -/

/-- The cue of an immediate CUE frame. -/
def immediate (kind : CueKind) (mask tag segment : Byte) : Cue :=
  { kind := kind, mask := mask, tag := tag.toNat, segment := segment.toNat }

/-- What an immediate CUE frame says (R118). -/
theorem readCue_immediate (day : Nat) (kind : CueKind) (mask tag segment a b c : Byte)
    (h : kind ≠ .take ∨ segment.toNat ≤ 63) :
    readCue day (BitVec.ofNat 8 kind.code :: immediateCue mask tag segment a b c)
      = some (immediate kind mask tag segment, none) := by
  cases kind <;> simp_all [readCue, immediateCue, byteAt, CueKind.code, cueKindOf, immediate]

/-- An immediate broadcast CUE frame is carried out and gets no reply. -/
theorem cueRow_broadcast (kind : CueKind) (mask tag segment a b c : Byte) (s : State)
    (h : kind ≠ .take ∨ segment.toNat ≤ 63) :
    cueRow kind true (immediateCue mask tag segment a b c) s = s.heard.executeCue (immediate kind mask tag segment) := by
  have len : (BitVec.ofNat 8 kind.code :: immediateCue mask tag segment a b c).length = 8 := rfl
  simp only [cueRow, State.cueFrame, State.automationGood_frameClosed, takeCueFrame, len,
    readCue_immediate _ _ _ _ _ _ _ _ h]
  rfl

/-- An immediate addressed CUE frame is carried out and answered with ACK. -/
theorem cueRow_addressed (kind : CueKind) (mask tag segment a b c : Byte) (s : State)
    (h : kind ≠ .take ∨ segment.toNat ≤ 63) (room : s.canAnswer) :
    cueRow kind false (immediateCue mask tag segment a b c) s
      = (s.heard.executeCue (immediate kind mask tag segment)).answer 0x40 (.ack none) := by
  have full : ¬ 4 ≤ s.links.automation.waiting.length := by unfold State.canAnswer at room; omega
  have len : (BitVec.ofNat 8 kind.code :: immediateCue mask tag segment a b c).length = 8 := rfl
  simp only [cueRow, State.cueFrame, State.automationGood_frameClosed, State.serve, State.repliesFull_heard, takeCueFrame,
    len, readCue_immediate _ _ _ _ _ _ _ _ h, decide_eq_true_eq, full]
  rfl

/-- A cue leaves the other lane's parameters. -/
theorem State.params_cueOnLane_lane0 (s : State) (c : Cue) : (s.cueOnLane c .lane0).lane .lane1 = s.lane .lane1 := by
  unfold State.cueOnLane
  split
  · simp_all
  · simp_all
  · split
    · exact State.onLane_lane_of_ne _ _ (by simp)
    · rfl

/-- A cue whose mask addresses one lane alone acts on that lane alone (R120). -/
theorem State.executeCue_only (s : State) (c : Cue) (l : LaneId) (h : s.onlyAddresses c.mask l) :
    s.executeCue c = s.cueOnLane c l := by
  obtain ⟨h0, h1⟩ := h
  have a0 := h1 .lane0
  have a1 := h1 .lane1
  cases l with
  | lane0 =>
    have e0 : s.addressed c.mask .lane0 = true := by simp_all [State.addressed]
    have e1 : (s.cueOnLane c .lane0).addressed c.mask .lane1 = false := by
      unfold State.addressed; rw [State.params_cueOnLane_lane0]; simp_all
    simp [State.executeCue, State.cueIfAddressed, e0, e1]
  | lane1 =>
    have e0 : s.addressed c.mask .lane0 = false := by simp_all [State.addressed]
    have e1 : s.addressed c.mask .lane1 = true := by simp_all [State.addressed]
    simp [State.executeCue, State.cueIfAddressed, e0, e1]

/-- The addressing of a part whose frame on link A was counted. -/
theorem State.onlyAddresses_heard (s : State) (mask : Byte) (l : LaneId) :
    s.heard.onlyAddresses mask l ↔ s.onlyAddresses mask l := Iff.rfl

end Sys2Proof.Machine
end

