-- ==== Sys2Proof/Laws/Lane.lean ====
section
/-! SUPPORT. What the blocks of a lane can do when they act: what each shared operation leaves as it was, what composition
does, and that the lists it fills stay within their capacities. -/

namespace Sys2Proof.Machine

/-! ## What a lane's blocks leave alone -/

/-- Two lanes agree in what the timing engine, the display set and the feeding of a deck never change: the lane state, the
flags, the parameters, and the builder but for its recent-word window. -/
def Lane.sameSettings (a b : Lane) : Prop :=
  b.state = a.state ∧ b.frozen = a.frozen ∧ b.held = a.held ∧ b.params = a.params
    ∧ b.builder.openUnit = a.builder.openUnit ∧ b.builder.provisional = a.builder.provisional
    ∧ b.builder.flush = a.builder.flush ∧ b.builder.style = a.builder.style
    ∧ b.builder.pendingLabel = a.builder.pendingLabel

/-- An act on a lane keeps the settings and only adds reports. -/
def LaneRun.onlyTimes (r q : LaneRun) : Prop := r.lane.sameSettings q.lane ∧ ∃ added, q.out = r.out ++ added

theorem Lane.sameSettings_refl (a : Lane) : a.sameSettings a := ⟨rfl, rfl, rfl, rfl, rfl, rfl, rfl, rfl, rfl⟩

theorem Lane.sameSettings_trans {a b c : Lane} (h : a.sameSettings b) (k : b.sameSettings c) : a.sameSettings c := by
  unfold Lane.sameSettings at *
  simp_all

theorem LaneRun.onlyTimes_refl (r : LaneRun) : r.onlyTimes r := ⟨Lane.sameSettings_refl _, [], by simp⟩

theorem LaneRun.onlyTimes_trans {r q p : LaneRun} (h : r.onlyTimes q) (k : q.onlyTimes p) : r.onlyTimes p := by
  obtain ⟨h1, x, hx⟩ := h
  obtain ⟨k1, y, hy⟩ := k
  exact ⟨Lane.sameSettings_trans h1 k1, x ++ y, by rw [hy, hx, List.append_assoc]⟩

/-- An edit that keeps the settings only times. -/
theorem LaneRun.onlyTimes_edit (r : LaneRun) (f : Lane → Lane) (h : r.lane.sameSettings (f r.lane)) :
    r.onlyTimes (r.edit f) := ⟨h, [], by simp⟩

/-- A report only times. -/
theorem LaneRun.onlyTimes_emit (r : LaneRun) (env : LaneEnv) (k : ReportKind) (w : Option WriterId) (v : Option Nat) :
    r.onlyTimes (r.emit env k w v) := ⟨Lane.sameSettings_refl _, _, rfl⟩

/-! ## Composition (R96) -/

/-- Everything composition can do: nothing, where the next buffer is ready, the lane FROZEN or the queue empty; otherwise it
takes the head of the queue into the next buffer. -/
theorem compose_cases (r : LaneRun) :
    (compose r = r ∧ (r.lane.display.nextReady = true ∨ r.lane.frozen = true ∨ r.lane.engine.queue = []))
    ∨ ∃ t rest, r.lane.engine.queue = t :: rest ∧ r.lane.display.nextReady = false ∧ r.lane.frozen = false
        ∧ compose r = r.edit fun ln =>
            { ln with
              engine := { ln.engine with queue := rest }
              display := { ln.display with
                compose := ln.display.next
                next := composedImage ln.params ln.display.air t
                nextReady := true } } := by
  unfold compose
  split
  · rename_i h
    exact .inl ⟨rfl, h.elim .inl fun x => .inr (.inl x)⟩
  · rename_i h
    split
    · exact .inl ⟨rfl, .inr (.inr ‹_›)⟩
    · exact .inr ⟨_, _, ‹_›, by simpa using h⟩

theorem compose_onlyTimes (r : LaneRun) : r.onlyTimes (compose r) := by
  obtain ⟨h, -⟩ | ⟨t, rest, -, -, -, h⟩ := compose_cases r
  · rw [h]; exact r.onlyTimes_refl
  · rw [h]; exact r.onlyTimes_edit _ ⟨rfl, rfl, rfl, rfl, rfl, rfl, rfl, rfl, rfl⟩

/-- Composition never lengthens the queue. -/
theorem compose_queue_length (r : LaneRun) : (compose r).lane.engine.queue.length ≤ r.lane.engine.queue.length := by
  obtain ⟨h, -⟩ | ⟨t, rest, hq, -, -, h⟩ := compose_cases r <;> simp_all

/-- Composition keeps the deck. -/
theorem compose_deck (r : LaneRun) : (compose r).lane.deck = r.lane.deck := by
  obtain ⟨h, -⟩ | ⟨t, rest, -, -, -, h⟩ := compose_cases r <;> simp_all

/-! ## Timing a unit (R73 to R83) -/

theorem Lane.markCut_sameSettings (ln : Lane) (ref : Nat) : ln.sameSettings (ln.markCut ref) :=
  ⟨rfl, rfl, rfl, rfl, rfl, rfl, rfl, rfl, rfl⟩

theorem cutNamed_onlyTimes (env : LaneEnv) (ref value : Nat) (r : LaneRun) : r.onlyTimes (cutNamed env ref value r) := by
  unfold cutNamed
  split
  · exact r.onlyTimes_refl
  · split
    · exact r.onlyTimes_refl
    · exact ⟨⟨rfl, rfl, rfl, rfl, rfl, rfl, rfl, rfl, rfl⟩, _, rfl⟩

theorem cutNamed_queue_length (env : LaneEnv) (ref value : Nat) (r : LaneRun) :
    (cutNamed env ref value r).lane.engine.queue.length = r.lane.engine.queue.length := by
  unfold cutNamed
  split
  · rfl
  · split <;> simp [Lane.markCut]

theorem cutNamed_deck (env : LaneEnv) (ref value : Nat) (r : LaneRun) :
    (cutNamed env ref value r).lane.deck = r.lane.deck := by
  unfold cutNamed
  split
  · rfl
  · split <;> simp [Lane.markCut]

/-- A unit that is not late past Λmax cuts nothing (R80). -/
theorem cutIfLate_of_within (env : LaneEnv) (t : TimedUnit) (r : LaneRun)
    (h : lateness r.lane.engine.record t.base ≤ r.lane.params.lamMax) : cutIfLate env t r = r := by
  unfold cutIfLate
  split
  · rfl
  · rename_i x hx
    rw [hx] at h
    simp [Nat.not_lt.mpr h]

theorem cutIfLate_onlyTimes (env : LaneEnv) (t : TimedUnit) (r : LaneRun) : r.onlyTimes (cutIfLate env t r) := by
  unfold cutIfLate
  split
  · exact r.onlyTimes_refl
  · split
    · exact cutNamed_onlyTimes _ _ _ _
    · exact r.onlyTimes_refl

theorem cutIfLate_queue_length (env : LaneEnv) (t : TimedUnit) (r : LaneRun) :
    (cutIfLate env t r).lane.engine.queue.length = r.lane.engine.queue.length := by
  unfold cutIfLate
  split
  · rfl
  · split
    · exact cutNamed_queue_length _ _ _ _
    · rfl

theorem cutIfLate_deck (env : LaneEnv) (t : TimedUnit) (r : LaneRun) :
    (cutIfLate env t r).lane.deck = r.lane.deck := by
  unfold cutIfLate
  split
  · rfl
  · split
    · exact cutNamed_deck _ _ _ _
    · rfl

/-- With a free place in the queue the unit is appended, and the record and the level take its values (R81). -/
theorem appendTimed_of_room (env : LaneEnv) (now : Nat) (t : TimedUnit) (r : LaneRun)
    (h : r.lane.engine.queue.length < 32) :
    appendTimed env now t r = r.edit fun ln => { ln with engine :=
      { queue := ln.engine.queue ++ [t], record := some { release := t.release, minimum := t.minimum, ref := t.ref }
        level := t.level, nextRef := t.ref + 1 } } := by
  have full : ¬ Config.queueCapacity ≤ r.lane.engine.queue.length := by unfold Config.queueCapacity; omega
  simp [appendTimed, full, LaneRun.edit]

theorem discardHead_onlyTimes (env : LaneEnv) (now : Nat) (r : LaneRun) : r.onlyTimes (discardHead env now r) := by
  unfold discardHead
  split
  · exact r.onlyTimes_refl
  · exact ⟨⟨rfl, rfl, rfl, rfl, rfl, rfl, rfl, rfl, rfl⟩, _, rfl⟩

theorem discardHead_queue_length (env : LaneEnv) (now : Nat) (r : LaneRun) :
    (discardHead env now r).lane.engine.queue.length = r.lane.engine.queue.length - 1 := by
  unfold discardHead
  split <;> simp_all

theorem discardHead_deck (env : LaneEnv) (now : Nat) (r : LaneRun) :
    (discardHead env now r).lane.deck = r.lane.deck := by
  unfold discardHead
  split <;> rfl

theorem appendTimed_onlyTimes (env : LaneEnv) (now : Nat) (t : TimedUnit) (r : LaneRun) :
    r.onlyTimes (appendTimed env now t r) := by
  unfold appendTimed
  refine LaneRun.onlyTimes_trans (q := r.edit fun ln => { ln with engine := { ln.engine with
    record := some { release := t.release, minimum := t.minimum, ref := t.ref }, level := t.level
    nextRef := t.ref + 1 } })
    (r.onlyTimes_edit _ ⟨rfl, rfl, rfl, rfl, rfl, rfl, rfl, rfl, rfl⟩) ?_
  dsimp only
  split
  · exact LaneRun.onlyTimes_trans (discardHead_onlyTimes env now _)
      (LaneRun.onlyTimes_edit _ _ ⟨rfl, rfl, rfl, rfl, rfl, rfl, rfl, rfl, rfl⟩)
  · exact LaneRun.onlyTimes_edit _ _ ⟨rfl, rfl, rfl, rfl, rfl, rfl, rfl, rfl, rfl⟩

/-- The queue stays within its capacity (R82). -/
theorem appendTimed_queue_length (env : LaneEnv) (now : Nat) (t : TimedUnit) (r : LaneRun)
    (h : r.lane.engine.queue.length ≤ 32) : (appendTimed env now t r).lane.engine.queue.length ≤ 32 := by
  unfold appendTimed Config.queueCapacity
  dsimp only
  split
  · simp [discardHead_queue_length]; omega
  · rename_i k
    simp at k ⊢; omega

theorem appendTimed_deck (env : LaneEnv) (now : Nat) (t : TimedUnit) (r : LaneRun) :
    (appendTimed env now t r).lane.deck = r.lane.deck := by
  unfold appendTimed
  dsimp only
  split <;> simp [discardHead_deck]

theorem joinScriptWords_onlyTimes (u : CaptionUnit) (r : LaneRun) : r.onlyTimes (joinScriptWords u r) := by
  unfold joinScriptWords
  split
  · exact r.onlyTimes_refl
  · exact r.onlyTimes_edit _ ⟨rfl, rfl, rfl, rfl, rfl, rfl, rfl, rfl, rfl⟩

theorem joinScriptWords_engine (u : CaptionUnit) (r : LaneRun) : (joinScriptWords u r).lane.engine = r.lane.engine := by
  unfold joinScriptWords; split <;> rfl

theorem joinScriptWords_deck (u : CaptionUnit) (r : LaneRun) : (joinScriptWords u r).lane.deck = r.lane.deck := by
  unfold joinScriptWords; split <;> rfl

/-- A live unit's words joined the window when they were placed (R38, R83). -/
theorem joinScriptWords_of_live (u : CaptionUnit) (r : LaneRun) (w : WriterId) (h : u.origin = .live w) :
    joinScriptWords u r = r := by simp [joinScriptWords, h]

/-- Timing a unit only times: it leaves the settings, and adds reports. -/
theorem timeUnit_onlyTimes (env : LaneEnv) (now : Nat) (u : CaptionUnit) (r : LaneRun) :
    r.onlyTimes (timeUnit env now u r) :=
  LaneRun.onlyTimes_trans (cutIfLate_onlyTimes env _ r) <|
    LaneRun.onlyTimes_trans (appendTimed_onlyTimes env now _ _) <|
      LaneRun.onlyTimes_trans (joinScriptWords_onlyTimes u _) (compose_onlyTimes _)

/-- Timing a unit keeps the queue within its capacity (R82). -/
theorem timeUnit_queue_length (env : LaneEnv) (now : Nat) (u : CaptionUnit) (r : LaneRun)
    (h : r.lane.engine.queue.length ≤ 32) : (timeUnit env now u r).lane.engine.queue.length ≤ 32 := by
  unfold timeUnit
  refine Nat.le_trans (compose_queue_length _) ?_
  rw [joinScriptWords_engine]
  exact appendTimed_queue_length _ _ _ _ (by rw [cutIfLate_queue_length]; exact h)

/-- Timing a unit keeps the deck. -/
theorem timeUnit_deck (env : LaneEnv) (now : Nat) (u : CaptionUnit) (r : LaneRun) :
    (timeUnit env now u r).lane.deck = r.lane.deck := by
  simp [timeUnit, compose_deck, joinScriptWords_deck, appendTimed_deck, cutIfLate_deck]

/-- A release frame lies above the record's (R79). -/
theorem releaseFrame_above (p : Params) (x : LastTimed) (base late : Nat) :
    x.release < releaseFrame p (some x) base late := by
  simp only [releaseFrame]; omega

/-- An effective minimum is at least Hfloor (R78). -/
theorem hFloor_le_effectiveMinimum (p : Params) (level : CatchUp) (m : Nat) : p.hFloor ≤ effectiveMinimum p level m := by
  simp only [effectiveMinimum]; omega

/-- The recent-word window never grows past 12 entries (R38). -/
theorem joinWindow_length (window : List Text) (t : Text) : (joinWindow window t).length ≤ 12 := by
  simp only [joinWindow, Config.windowCapacity, List.length_drop, List.length_append, List.length_singleton]
  omega

theorem foldl_joinWindow_length (ts : List Text) (window : List Text) (h : window.length ≤ 12) :
    (ts.foldl joinWindow window).length ≤ 12 := by
  induction ts generalizing window with
  | nil => exact h
  | cons t ts ih => exact ih _ (joinWindow_length window t)

/-- Timing a unit keeps the recent-word window within its capacity (R38, R83). -/
theorem joinScriptWords_recent_length (u : CaptionUnit) (r : LaneRun) (h : r.lane.builder.recent.length ≤ 12) :
    (joinScriptWords u r).lane.builder.recent.length ≤ 12 := by
  unfold joinScriptWords
  split
  · exact h
  · exact foldl_joinWindow_length _ _ h

/-! ## Timing from the provisional list (R61 to R64) -/

/-- Timing units one after another only times. -/
theorem foldl_timeUnit_onlyTimes (env : LaneEnv) (ps : List Provisional) (r : LaneRun) :
    r.onlyTimes (ps.foldl (fun r p => timeUnit env env.sfc p.unit r) r) := by
  induction ps generalizing r with
  | nil => exact r.onlyTimes_refl
  | cons p ps ih => exact LaneRun.onlyTimes_trans (timeUnit_onlyTimes env env.sfc p.unit r) (ih _)

theorem foldl_timeUnit_queue_length (env : LaneEnv) (ps : List Provisional) (r : LaneRun)
    (h : r.lane.engine.queue.length ≤ 32) :
    (ps.foldl (fun r p => timeUnit env env.sfc p.unit r) r).lane.engine.queue.length ≤ 32 := by
  induction ps generalizing r with
  | nil => exact h
  | cons p ps ih => exact ih _ (timeUnit_queue_length env env.sfc p.unit r h)

theorem foldl_timeUnit_deck (env : LaneEnv) (ps : List Provisional) (r : LaneRun) :
    (ps.foldl (fun r p => timeUnit env env.sfc p.unit r) r).lane.deck = r.lane.deck := by
  induction ps generalizing r with
  | nil => rfl
  | cons p ps ih => exact (ih _).trans (timeUnit_deck env env.sfc p.unit r)

/-- What timing the due units leaves of the provisional list (R62). -/
theorem timeDue_provisional (env : LaneEnv) (r : LaneRun) :
    (timeDue env r).lane.builder.provisional
      = r.lane.builder.provisional.dropWhile fun p => decide (p.windowEnd ≤ env.sfc) := by
  unfold timeDue
  exact (foldl_timeUnit_onlyTimes env _ _).1.2.2.2.2.2.1

/-- No due unit, nothing done (R62). -/
theorem timeDue_of_quiet (env : LaneEnv) (r : LaneRun)
    (h : ∀ p ∈ r.lane.builder.provisional, env.sfc < p.windowEnd) : timeDue env r = r := by
  have none_due : (r.lane.builder.provisional.takeWhile fun p => decide (p.windowEnd ≤ env.sfc)) = [] := by
    cases hp : r.lane.builder.provisional with
    | nil => rfl
    | cons p ps => simp [Nat.not_le.mpr (h p (by simp [hp]))]
  have all_left : (r.lane.builder.provisional.dropWhile fun p => decide (p.windowEnd ≤ env.sfc))
      = r.lane.builder.provisional := by
    have e := List.takeWhile_append_dropWhile (p := fun p : Provisional => decide (p.windowEnd ≤ env.sfc))
      (l := r.lane.builder.provisional)
    rwa [none_due, List.nil_append] at e
  simp only [timeDue, none_due, all_left, List.foldl_nil]
  rfl

theorem timeDue_queue_length (env : LaneEnv) (r : LaneRun) (h : r.lane.engine.queue.length ≤ 32) :
    (timeDue env r).lane.engine.queue.length ≤ 32 := foldl_timeUnit_queue_length env _ _ h

theorem timeDue_deck (env : LaneEnv) (r : LaneRun) : (timeDue env r).lane.deck = r.lane.deck :=
  foldl_timeUnit_deck env _ _

/-- Every provisional unit is timed at a take (R64). -/
theorem timeAll_provisional (env : LaneEnv) (r : LaneRun) : (timeAll env r).lane.builder.provisional = [] := by
  unfold timeAll
  exact (foldl_timeUnit_onlyTimes env _ _).1.2.2.2.2.2.1

theorem timeAll_queue_length (env : LaneEnv) (r : LaneRun) (h : r.lane.engine.queue.length ≤ 32) :
    (timeAll env r).lane.engine.queue.length ≤ 32 := foldl_timeUnit_queue_length env _ _ h

theorem timeAll_deck (env : LaneEnv) (r : LaneRun) : (timeAll env r).lane.deck = r.lane.deck :=
  foldl_timeUnit_deck env _ _

/-- A forced head is the one unit that leaves the list (R63). -/
theorem forceHead_provisional (env : LaneEnv) (r : LaneRun) :
    (forceHead env r).lane.builder.provisional = r.lane.builder.provisional.drop 1 := by
  unfold forceHead
  split
  · simp_all
  · rename_i p rest hp
    have key := (timeUnit_onlyTimes env env.sfc p.unit (r.editBuilder fun b => { b with provisional := rest })).1.2.2.2.2.2.1
    rw [hp]
    exact key

theorem forceHead_queue_length (env : LaneEnv) (r : LaneRun) (h : r.lane.engine.queue.length ≤ 32) :
    (forceHead env r).lane.engine.queue.length ≤ 32 := by
  unfold forceHead
  split
  · exact h
  · exact timeUnit_queue_length env env.sfc _ _ h

theorem forceHead_deck (env : LaneEnv) (r : LaneRun) : (forceHead env r).lane.deck = r.lane.deck := by
  unfold forceHead
  split
  · rfl
  · exact timeUnit_deck env env.sfc _ _

/-- After a close the provisional list is within its capacity (R63). -/
theorem closeOpen_provisional_length (env : LaneEnv) (cause : CloseCause) (r : LaneRun)
    (h : r.lane.builder.provisional.length ≤ 4) : (closeOpen env cause r).lane.builder.provisional.length ≤ 4 := by
  unfold closeOpen
  split
  · exact h
  · dsimp only
    rw [timeDue_provisional]
    refine Nat.le_trans (List.dropWhile_sublist _).length_le ?_
    unfold Config.provisionalCapacity
    split
    · simp [LaneRun.editBuilder, forceHead_provisional]; omega
    · rename_i k
      simp [LaneRun.editBuilder] at k ⊢; omega

theorem closeOpen_queue_length (env : LaneEnv) (cause : CloseCause) (r : LaneRun)
    (h : r.lane.engine.queue.length ≤ 32) : (closeOpen env cause r).lane.engine.queue.length ≤ 32 := by
  unfold closeOpen
  split
  · exact h
  · dsimp only
    refine timeDue_queue_length env _ ?_
    split
    · exact forceHead_queue_length env _ h
    · exact h

theorem closeOpen_deck (env : LaneEnv) (cause : CloseCause) (r : LaneRun) :
    (closeOpen env cause r).lane.deck = r.lane.deck := by
  unfold closeOpen
  split
  · rfl
  · dsimp only
    rw [timeDue_deck]
    show (if _ then forceHead env _ else _ : LaneRun).lane.deck = _
    split
    · exact forceHead_deck env _
    · rfl

/-- A close with room on the list, no unit due and a window ahead, only moves the unit (R57a, R61, R62). -/
theorem closeOpen_of_quiet (env : LaneEnv) (cause : CloseCause) (r : LaneRun) (u : CaptionUnit)
    (hu : r.lane.builder.openUnit = some u) (room : r.lane.builder.provisional.length < 4)
    (quiet : ∀ p ∈ r.lane.builder.provisional, env.sfc < p.windowEnd) (ahead : 0 < r.lane.params.correction) :
    closeOpen env cause r = r.editBuilder fun b => { b with
      openUnit := none, flush := none
      provisional := b.provisional ++ [{ unit := { u with closeFrame := some env.sfc, closeCause := some cause }
                                         windowEnd := env.sfc + r.lane.params.correction }] } := by
  have full : ¬ 4 ≤ r.lane.builder.provisional.length := by omega
  unfold closeOpen
  simp only [hu, Config.provisionalCapacity, LaneRun.editBuilder, LaneRun.edit, full, if_false]
  rw [timeDue_of_quiet]
  intro p hp
  simp only [List.mem_append, List.mem_singleton] at hp
  obtain hp | rfl := hp
  · exact quiet p hp
  · show env.sfc < env.sfc + _
    omega

/-! ## The deck player (R164 to R167) -/

/-- A deck never grows as it plays. -/
theorem timeDeckUnit_units_length (env : LaneEnv) (segment : Nat) (u : CaptionUnit) (onset : Nat) (r : LaneRun) :
    (timeDeckUnit env segment u onset r).lane.deck.units.length ≤ r.lane.deck.units.length := by
  unfold timeDeckUnit exhaust
  dsimp only
  split
  · simp [Deck.without]
  · rw [timeUnit_deck]; simp [LaneRun.editDeck]

theorem timeDeckUnit_queue_length (env : LaneEnv) (segment : Nat) (u : CaptionUnit) (onset : Nat) (r : LaneRun)
    (h : r.lane.engine.queue.length ≤ 32) :
    (timeDeckUnit env segment u onset r).lane.engine.queue.length ≤ 32 := by
  unfold timeDeckUnit exhaust
  dsimp only
  split <;> exact timeUnit_queue_length env env.sfc _ _ h

theorem feedUpTo_queue_length (env : LaneEnv) (n : Nat) (r : LaneRun) (h : r.lane.engine.queue.length ≤ 32) :
    (feedUpTo env n r).lane.engine.queue.length ≤ 32 := by
  induction n generalizing r with
  | zero => exact h
  | succ n ih =>
    unfold feedUpTo
    split
    · split
      · exact ih _ (timeDeckUnit_queue_length env _ _ _ _ h)
      · exact h
    · exact h

theorem feedUpTo_units_length (env : LaneEnv) (n : Nat) (r : LaneRun) :
    (feedUpTo env n r).lane.deck.units.length ≤ r.lane.deck.units.length := by
  induction n generalizing r with
  | zero => exact Nat.le_refl _
  | succ n ih =>
    unfold feedUpTo
    split
    · split
      · exact Nat.le_trans (ih _) (timeDeckUnit_units_length env _ _ _ _)
      · exact Nat.le_refl _
    · exact Nat.le_refl _

/-- Feeding keeps the queue within its capacity (R166). -/
theorem feed_queue_length (env : LaneEnv) (r : LaneRun) (h : r.lane.engine.queue.length ≤ 32) :
    (feed env r).lane.engine.queue.length ≤ 32 := feedUpTo_queue_length env _ r h

/-- Feeding never adds to the deck (R166). -/
theorem feed_units_length (env : LaneEnv) (r : LaneRun) :
    (feed env r).lane.deck.units.length ≤ r.lane.deck.units.length := feedUpTo_units_length env _ r

/-- A deck that is not PLAYING feeds nothing (R166). -/
theorem feed_of_notPlaying (env : LaneEnv) (r : LaneRun) (h : ∀ g, r.lane.deck.state ≠ .playing g) : feed env r = r := by
  unfold feed
  cases r.lane.deck.units.length with
  | zero => rfl
  | succ n =>
    unfold feedUpTo
    split
    · exact absurd ‹_› (h _)
    · rfl

/-- A STEPPED deck feeds nothing of its own (R164, R166). -/
theorem feed_of_stepped (env : LaneEnv) (r : LaneRun) (h : r.lane.deck.pacing ≠ some .auto) : feed env r = r := by
  unfold feed
  cases r.lane.deck.units.length with
  | zero => rfl
  | succ n =>
    unfold feedUpTo
    split
    · exact absurd ‹_› h
    · rfl

theorem exhaust_onlyTimes (env : LaneEnv) (segment : Nat) (r : LaneRun) : r.onlyTimes (exhaust env segment r) := by
  unfold exhaust
  split
  · exact ⟨⟨rfl, rfl, rfl, rfl, rfl, rfl, rfl, rfl, rfl⟩, _, rfl⟩
  · exact r.onlyTimes_refl

theorem timeDeckUnit_onlyTimes (env : LaneEnv) (segment : Nat) (u : CaptionUnit) (onset : Nat) (r : LaneRun) :
    r.onlyTimes (timeDeckUnit env segment u onset r) := by
  unfold timeDeckUnit
  exact LaneRun.onlyTimes_trans (r.onlyTimes_edit _ ⟨rfl, rfl, rfl, rfl, rfl, rfl, rfl, rfl, rfl⟩) <|
    LaneRun.onlyTimes_trans (timeUnit_onlyTimes env env.sfc _ _) (exhaust_onlyTimes env segment _)

theorem feedUpTo_onlyTimes (env : LaneEnv) (n : Nat) (r : LaneRun) : r.onlyTimes (feedUpTo env n r) := by
  induction n generalizing r with
  | zero => exact r.onlyTimes_refl
  | succ n ih =>
    unfold feedUpTo
    split
    · split
      · exact LaneRun.onlyTimes_trans (timeDeckUnit_onlyTimes env _ _ _ _) (ih _)
      · exact r.onlyTimes_refl
    · exact r.onlyTimes_refl

/-- Composition and feeding only time (R96, R166). -/
theorem composeAndFeed_onlyTimes (env : LaneEnv) (r : LaneRun) : r.onlyTimes (composeAndFeed env r) :=
  LaneRun.onlyTimes_trans (compose_onlyTimes r) (feedUpTo_onlyTimes env _ _)

theorem composeAndFeed_queue_length (env : LaneEnv) (r : LaneRun) (h : r.lane.engine.queue.length ≤ 32) :
    (composeAndFeed env r).lane.engine.queue.length ≤ 32 :=
  feed_queue_length env _ (Nat.le_trans (compose_queue_length r) h)

theorem composeAndFeed_units_length (env : LaneEnv) (r : LaneRun) :
    (composeAndFeed env r).lane.deck.units.length ≤ r.lane.deck.units.length :=
  Nat.le_trans (feed_units_length env _) (by rw [compose_deck])

/-- With a next image ready and no deck playing, composition and feeding do nothing. -/
theorem composeAndFeed_of_ready (env : LaneEnv) (r : LaneRun)
    (h : r.lane.display.nextReady = true ∨ r.lane.frozen = true ∨ r.lane.engine.queue = [])
    (k : ∀ g, r.lane.deck.state ≠ .playing g) : composeAndFeed env r = r := by
  have e : compose r = r := by
    obtain ⟨e, -⟩ | ⟨t, rest, hq, hn, hf, -⟩ := compose_cases r
    · exact e
    · simp_all
  rw [composeAndFeed, e, feed_of_notPlaying env r k]

/-! ## The retime (R127) and the cue schedule (R119) -/

/-- Raising release frames keeps how many there are. -/
theorem raiseReleases_length (least : Nat) (ts : List TimedUnit) : (raiseReleases least ts).length = ts.length := by
  induction ts generalizing least with
  | nil => rfl
  | cons t ts ih => simp [raiseReleases, ih]

theorem Lane.walked_sameSettings (ln : Lane) (now : Nat) : ln.sameSettings (ln.walked now) := by
  unfold Lane.walked
  dsimp only
  split
  · exact ⟨rfl, rfl, rfl, rfl, rfl, rfl, rfl, rfl, rfl⟩
  · split <;> exact ⟨rfl, rfl, rfl, rfl, rfl, rfl, rfl, rfl, rfl⟩

/-- A retime only times (R127, R128). -/
theorem retime_onlyTimes (env : LaneEnv) (r : LaneRun) : r.onlyTimes (retime env r) := by
  unfold retime
  dsimp only
  refine LaneRun.onlyTimes_trans (r.onlyTimes_edit (Lane.walked · env.sfc) (Lane.walked_sameSettings _ _)) ?_
  refine LaneRun.onlyTimes_trans ?_ (composeAndFeed_onlyTimes env _)
  split
  · exact LaneRun.onlyTimes_refl _
  · exact ⟨⟨rfl, rfl, rfl, rfl, rfl, rfl, rfl, rfl, rfl⟩, _, rfl⟩

/-- A cue that enters the schedule adds one entry. -/
theorem insertCue_length (es : List ScheduledCue) (c : ScheduledCue) : (insertCue es c).length = es.length + 1 := by
  induction es with
  | nil => rfl
  | cons e es ih =>
    unfold insertCue
    split <;> simp [ih]

/-- A cue stands after every entry due no later, and before the rest (R119). -/
theorem insertCue_split (es : List ScheduledCue) (c : ScheduledCue) :
    ∃ before after, es = before ++ after ∧ insertCue es c = before ++ c :: after
      ∧ (∀ e ∈ before, e.target ≤ c.target) ∧ ∀ e ∈ after.head?, c.target < e.target := by
  induction es with
  | nil => exact ⟨[], [], rfl, rfl, by simp, by simp⟩
  | cons e es ih =>
    unfold insertCue
    split
    · obtain ⟨b, a, rfl, h2, h3, h4⟩ := ih
      exact ⟨e :: b, a, rfl, by rw [h2]; rfl, by simpa using ⟨by assumption, h3⟩, h4⟩
    · rename_i h
      exact ⟨[], e :: es, rfl, rfl, by simp, by simpa using h⟩

end Sys2Proof.Machine
end

