-- ==== Sys2Proof/Laws/Memory.lean ====
section
/-! SUPPORT. Memory: what a write leaves at each address, and that every operation keeps the canonical form. -/

namespace Sys2Proof.Machine

/-- Writing keeps the canonical form above any bound below the address. -/
theorem Memory.wfAbove_write (m : Memory) (lo : Option Nat) (a : Nat) (v : Byte) (h : Memory.wfAbove lo m = true)
    (ha : ∀ l, lo = some l → l < a) : Memory.wfAbove lo (m.write a v) = true := by
  induction m generalizing lo with
  | nil =>
    by_cases hv : v = 0
    · simp [Memory.write, hv, Memory.wfAbove]
    · cases lo <;> simp_all [Memory.write, Memory.wfAbove]
  | cons c m ih =>
    obtain ⟨b, w⟩ := c
    simp only [Memory.wfAbove, Bool.and_eq_true] at h
    obtain ⟨⟨h1, h2⟩, h3⟩ := h
    unfold Memory.write
    by_cases hab : a < b
    · by_cases hv : v = 0
      · simp only [hab, hv, if_true, Memory.wfAbove, Bool.and_eq_true]; exact ⟨⟨h1, h2⟩, h3⟩
      · simp only [hab, hv, if_true, if_false, Memory.wfAbove, Bool.and_eq_true]
        refine ⟨⟨?_, by simpa using hv⟩, ⟨by simp, h2⟩, h3⟩
        cases lo with
        | none => rfl
        | some l => simpa using ha l rfl
    · by_cases he : a = b
      · subst he
        by_cases hv : v = 0
        · simp only [hab, hv, if_true, if_false]
          cases m with
          | nil => rfl
          | cons d m =>
            obtain ⟨e, x⟩ := d
            simp only [Memory.wfAbove, Bool.and_eq_true] at h3 ⊢
            refine ⟨⟨?_, h3.1.2⟩, h3.2⟩
            have h4 := h3.1.1
            cases lo with
            | none => rfl
            | some l =>
              simp only [decide_eq_true_eq] at h1 h4 ⊢
              omega
        · simp only [hab, hv, if_true, if_false, Memory.wfAbove, Bool.and_eq_true]
          exact ⟨⟨h1, by simpa using hv⟩, h3⟩
      · simp only [hab, he, if_false, Memory.wfAbove, Bool.and_eq_true]
        refine ⟨⟨h1, h2⟩, ih (some b) h3 ?_⟩
        intro l hl
        have : b = l := by simpa using hl
        omega

/-- Writing one character keeps the canonical form. -/
theorem Memory.wf_write (m : Memory) (a : Nat) (v : Byte) (h : m.wf = true) : (m.write a v).wf = true :=
  Memory.wfAbove_write m none a v h (by simp)

/-- Writing a run of characters keeps the canonical form. -/
theorem Memory.wf_writeRun (m : Memory) (a : Nat) (vs : List Byte) (h : m.wf = true) : (m.writeRun a vs).wf = true := by
  induction vs generalizing m a with
  | nil => exact h
  | cons v vs ih => exact ih _ _ (Memory.wf_write m a v h)

/-- Below the first listed address everything reads 0x00. -/
theorem Memory.read_of_below (m : Memory) (lo a : Nat) (h : Memory.wfAbove (some lo) m = true) (ha : a ≤ lo) :
    m.read a = 0 := by
  induction m generalizing lo with
  | nil => rfl
  | cons c m ih =>
    obtain ⟨b, w⟩ := c
    simp only [Memory.wfAbove, Bool.and_eq_true, decide_eq_true_eq] at h
    have : b ≠ a := by omega
    simp only [Memory.read, this, if_false]
    exact ih b h.2 (by omega)

/-- What a write leaves: the character written at its address, and every other address as before. -/
theorem Memory.read_write (m : Memory) (lo : Option Nat) (a : Nat) (v : Byte) (x : Nat) (h : Memory.wfAbove lo m = true) :
    (m.write a v).read x = if x = a then v else m.read x := by
  induction m generalizing lo with
  | nil =>
    unfold Memory.write
    by_cases hx : x = a
    · by_cases hv : v = 0
      · rw [if_pos hv, if_pos hx, hv]; rfl
      · rw [if_neg hv, if_pos hx, Memory.read, if_pos hx.symm]
    · by_cases hv : v = 0
      · rw [if_pos hv, if_neg hx]
      · rw [if_neg hv, if_neg hx]
        exact if_neg (Ne.symm hx)
  | cons c m ih =>
    obtain ⟨b, w⟩ := c
    simp only [Memory.wfAbove, Bool.and_eq_true] at h
    obtain ⟨⟨-, -⟩, h3⟩ := h
    unfold Memory.write
    by_cases hab : a < b
    · by_cases hv : v = 0
      · simp only [hab, hv, if_true]
        by_cases hx : x = a
        · have hb : b ≠ a := by omega
          have := Memory.read_of_below m b a h3 (by omega)
          simp [Memory.read, hx, hb, this]
        · simp [hx]
      · simp only [hab, hv, if_true, if_false, Memory.read]
        by_cases hx : x = a
        · simp [hx]
        · have : a ≠ x := fun hc => hx hc.symm
          simp [hx, this]
    · by_cases he : a = b
      · subst he
        by_cases hv : v = 0
        · simp only [hab, hv, if_true, if_false, Memory.read]
          by_cases hx : x = a
          · simp [hx, Memory.read_of_below m a a h3 (by omega)]
          · have : a ≠ x := fun hc => hx hc.symm
            simp [hx, this]
        · simp only [hab, hv, if_true, if_false, Memory.read]
          by_cases hx : x = a
          · simp [hx]
          · have : a ≠ x := fun hc => hx hc.symm
            simp [hx, this]
      · simp only [hab, he, if_false, Memory.read]
        by_cases hb : b = x
        · have : x ≠ a := by omega
          simp [hb, this]
        · simp [hb, ih (some b) h3]

/-- What writing a run leaves: the run at its addresses, and every other address as before. -/
theorem Memory.read_writeRun (m : Memory) (a : Nat) (vs : List Byte) (x : Nat) (h : m.wf = true) :
    (m.writeRun a vs).read x = if a ≤ x ∧ x < a + vs.length then vs.getD (x - a) 0 else m.read x := by
  induction vs generalizing m a with
  | nil =>
    have : ¬ (a ≤ x ∧ x < a + ([] : List Byte).length) := by simp
    rw [if_neg this]; rfl
  | cons v vs ih =>
    rw [Memory.writeRun, ih _ _ (Memory.wf_write m a v h), Memory.read_write m none a v x h]
    simp only [List.length_cons]
    by_cases h1 : a + 1 ≤ x ∧ x < a + 1 + vs.length
    · have h2 : a ≤ x ∧ x < a + (vs.length + 1) := by omega
      have h3 : x - a = (x - (a + 1)) + 1 := by omega
      simp [h1, h2, h3]
    · by_cases hx : x = a
      · subst hx
        simp
      · have h2 : ¬ (a ≤ x ∧ x < a + (vs.length + 1)) := by omega
        rw [if_neg h1, if_neg h2, if_neg hx]

/-- A run read from memory has the length asked for. -/
@[simp] theorem Memory.length_readRun (m : Memory) (a n : Nat) : (m.readRun a n).length = n := by
  induction n generalizing a with
  | zero => rfl
  | succ n ih => simp [Memory.readRun, ih]

/-- A run read from memory holds the characters of its addresses. -/
theorem Memory.getD_readRun (m : Memory) (a n i : Nat) (h : i < n) : (m.readRun a n).getD i 0 = m.read (a + i) := by
  induction n generalizing a i with
  | zero => omega
  | succ n ih =>
    cases i with
    | zero => simp [Memory.readRun]
    | succ i =>
      rw [Memory.readRun, List.getD_cons_succ, ih (a + 1) i (by omega)]
      congr 1; omega

end Sys2Proof.Machine
end

