-- ==== Sys2Proof/Laws/Retime.lean ====
section
/-! SUPPORT. Composition, release, feeding and the retime of a lane in the words of Sys2Proof/Safety.lean. -/

namespace Sys2Proof.Machine

/-- The last `n` of a list behind fillers, counted from its end. -/
theorem lastPadded_eq {α : Type} (n : Nat) (filler : α) (xs : List α) :
    lastPadded n filler xs = (List.range n).reverse.map fun k => (xs.reverse[k]?).getD filler := by
  apply List.ext_getElem?
  intro i
  unfold lastPadded
  simp only [List.getElem?_drop, List.getElem?_map, List.getElem?_append, List.length_replicate]
  by_cases h : i < n
  · have hr : (List.range n).reverse[i]? = some (n - 1 - i) := by
      have hlt : n - 1 - i < n := by omega
      rw [List.getElem?_reverse (by simpa using h), List.length_range, List.getElem?_range hlt]
    rw [hr]
    by_cases hx : xs.length + i < n
    · have : xs.length ≤ n - 1 - i := by omega
      simp [hx, this]
    · have h2 : n - 1 - i < xs.length := by omega
      simp only [hx, if_false, Option.map_some]
      rw [List.getElem?_reverse h2]
      have e : xs.length - 1 - (n - 1 - i) = xs.length + i - n := by omega
      have hlt : xs.length + i - n < xs.length := by omega
      rw [e, List.getElem?_eq_getElem hlt]; rfl
  · have hr : (List.range n).reverse[i]? = none := by simp; omega
    have hx : ¬ xs.length + i < n := by omega
    rw [hr]; simp [hx]; omega

/-- R97, R98: composition takes the rows that Safety states. -/
theorem composedRows_eq (p : Params) (air : Image) (u : CaptionUnit) : composedRows p air u = p.rowsOf air u := by
  unfold composedRows Params.rowsOf
  cases p.mode
  · simp only [lastPadded_eq]
    apply List.map_congr_left
    intro k _
    rw [← List.map_reverse, List.getElem?_map]
    cases u.lines.reverse[k]? <;> rfl
  · simp only [lastPadded_eq]

/-- R96: all that composition does to a lane at work. -/
theorem compose_eq (r : LaneRun) : compose r = { r with lane := r.lane.composed } := by
  unfold compose Lane.composed LaneRun.edit composedImage
  cases hq : r.lane.engine.queue <;> cases hn : r.lane.display.nextReady <;> cases hf : r.lane.frozen <;>
    simp [hf, composedRows_eq]

/-- R166: where no AUTO deck plays, nothing is fed. -/
theorem feed_eq (env : LaneEnv) (r : LaneRun) (h : r.lane.feedsNothing) : feed env r = r := by
  unfold feed
  cases r.lane.deck.units.length with
  | zero => rfl
  | succ n =>
    unfold feedUpTo
    split
    · next hs hp _ => exact absurd hp (h _ hs)
    · rfl

/-- Composition leaves the deck as it is. -/
theorem composed_deck (ln : Lane) : ln.composed.deck = ln.deck := by
  unfold Lane.composed
  split
  · split <;> rfl
  · rfl

/-- R96, R166: composition and feeding on a lane that feeds nothing. -/
theorem composeAndFeed_eq (env : LaneEnv) (r : LaneRun) (h : r.lane.feedsNothing) :
    composeAndFeed env r = { r with lane := r.lane.composed } := by
  unfold composeAndFeed
  rw [compose_eq, feed_eq]
  intro g hs
  rw [show ({ r with lane := r.lane.composed } : LaneRun).lane.deck = r.lane.deck from composed_deck _] at *
  exact h g hs

/-- R99, R125: all that a release, with the composition and feeding behind it, does to a lane that feeds nothing. -/
theorem release_eq (env : LaneEnv) (r : LaneRun) (h : r.lane.feedsNothing) :
    composeAndFeed env (releaseNext env r) = { r with lane := r.lane.released env.sfc } := by
  have hf : (releaseNext env r).lane.feedsNothing := fun g hs => h g hs
  rw [composeAndFeed_eq env _ hf]
  rfl

/-- R127: one survivor joins those raised before it. -/
def raiseOnto (now : Nat) (done : List TimedUnit) (t : TimedUnit) : List TimedUnit :=
  done ++ [{ t with release := match done.getLast? with
    | none => max t.release now
    | some v => max t.release (v.release + v.minimum) }]

theorem foldl_raiseOnto (now : Nat) (ts done : List TimedUnit) (v : TimedUnit) :
    ts.foldl (raiseOnto now) (done ++ [v]) = done ++ [v] ++ raiseReleases (v.release + v.minimum) ts := by
  induction ts generalizing done v with
  | nil => simp [raiseReleases]
  | cons t ts ih =>
    rw [List.foldl_cons, raiseOnto, ih]
    simp [raiseReleases]

/-- R127: raising the releases in walk order, as Safety states it. -/
theorem foldl_raiseOnto_nil (now : Nat) (ts : List TimedUnit) : ts.foldl (raiseOnto now) [] = raiseReleases now ts := by
  cases ts with
  | nil => rfl
  | cons t ts =>
    have h := foldl_raiseOnto now ts [] { t with release := max t.release now }
    simpa [raiseOnto, raiseReleases] using h

/-- Safety's survival of a unit is the model's not being stale. -/
theorem survives_eq (t : TimedUnit) (p : Params) (now : Nat) : t.survives p now = !staleAt p now t := by
  rw [Bool.eq_iff_iff]
  simp [TimedUnit.survives, staleAt]

/-- The waiting units are the walk. -/
theorem waitingUnits_eq (ln : Lane) : ln.waitingUnits = ln.walk := by
  unfold Lane.waitingUnits Lane.walk DisplaySet.nextUnit
  split <;> simp [*]

/-- The survivors of a retime are those of Safety. -/
theorem survivors_eq (ln : Lane) (now : Nat) :
    ln.survivors now = raiseReleases now (ln.walk.filter fun t => !staleAt ln.params now t) := by
  rw [← foldl_raiseOnto_nil, ← waitingUnits_eq]
  simp only [← survives_eq]
  rfl

/-- The number of units that a retime discards is that of Safety. -/
theorem discarded_eq (ln : Lane) (now : Nat) : ln.discarded now = ln.staleCount now := by
  unfold Lane.discarded Lane.staleCount
  rw [survivors_eq, raiseReleases_length, waitingUnits_eq]
  have := List.length_eq_length_filter_add (l := ln.walk) (staleAt ln.params now)
  omega

/-- R126 to R128: all that the retime of a lane that feeds nothing does. -/
theorem retime_eq (env : LaneEnv) (r : LaneRun) (h : r.lane.feedsNothing) :
    retime env r = { lane := r.lane.retimedAt env.sfc
                     out := r.out ++ if r.lane.discarded env.sfc = 0 then [] else
                       [{ kind := .unitsStale, lane := some env.lane, writer := none
                          value := some (r.lane.discarded env.sfc), stamp := env.sfc }] } := by
  have hd : (r.lane.walked env.sfc).deck = r.lane.deck := by
    unfold Lane.walked
    split
    · rfl
    · dsimp only
      split <;> rfl
  unfold retime
  rw [composeAndFeed_eq]
  · unfold Lane.retimedAt
    rw [← discarded_eq, survivors_eq]
    unfold Lane.walked LaneRun.edit LaneRun.emit DisplaySet.nextUnit saturate
    dsimp only
    generalize raiseReleases env.sfc (r.lane.walk.filter fun t => !staleAt r.lane.params env.sfc t) = kept
    rcases List.eq_nil_or_concat kept with rfl | ⟨ks, k, rfl⟩ <;>
      by_cases hk : r.lane.discarded env.sfc = 0 <;> cases hr : r.lane.display.nextReady <;>
      cases hu : r.lane.display.next.unit with
      | none => simp [hk, Config.counterMax]
      | some t => cases hs : staleAt r.lane.params env.sfc t <;> simp [hk, hs, survives_eq, Config.counterMax]
  · intro g
    split <;> simpa [LaneRun.edit, LaneRun.emit, hd] using h g

end Sys2Proof.Machine
end

