-- ==== Sys2Proof/Tests/Slice0.lean ====
section
/-! SUPPORT. The model's own tests: what WellFormed refuses, worked cases of the spec, and for each statement of
Obligations.lean a concrete state and operands that meet its hypotheses together. -/

namespace Sys2Proof.Tests

open Sys2Proof Sys2Proof.Machine

/-! ## Helpers -/

/-- The next state, when there is one. -/
def after (c : Instr) (s : State) : Option State :=
  match exec c s with
  | .next t => some t
  | _ => none

/-- A text from its characters. -/
def txt (cs : List Char) : Text := cs.map fun c => BitVec.ofNat 8 c.toNat

/-- A word without ATTACH. -/
def wd (cs : List Char) : CapWord := { text := txt cs, attach := false }

/-- A part with address 6, right after power-on. -/
def part : State := State.powerOn 5

/-- Lane 0 of the part, RUNNING. -/
def lane0 : Lane := { part.lane .lane0 with state := .running }

/-- Both lanes RUNNING, W0 ON_AIR and W1 STANDBY on lane 0, at SFC 7,000. -/
def live : State :=
  { (((part.setLane .lane0 lane0).setLane .lane1 { part.lane .lane1 with state := .running }).setWriter .w0
      { part.writer .w0 with role := .onAir .lane0 }).setWriter .w1 { part.writer .w1 with role := .standby .lane0 } with
    time := { part.time with sfc := 7000, fod := 7000 } }

/-- A live unit of one line of so many characters. -/
def unitOf (n : Nat) (onset : Int) : CaptionUnit :=
  { lane := .lane0, lines := [List.replicate n 0x41], words := [⟨[0x41], false⟩], style := StyleEntry.plain.style
    label := none, origin := .live .w0, firstArrival := some 7000, onset := some onset, closeFrame := some 7000
    closeCause := some .brk, cut := false }

/-- A timed unit with this base frame, release frame and minimum. -/
def timed (ref base release minimum : Nat) : TimedUnit :=
  { unit := unitOf 30 0, base := base, level := .level0, minimum := minimum, release := release, ref := ref }

/-! ## WellFormed refuses -/

theorem test_wf_payload_of_241_bytes : Instr.wellFormed 6 (.word .w0 (List.replicate 241 0)) = false := by decide +kernel
theorem test_wf_payload_of_240_bytes : Instr.wellFormed 6 (.word .w0 (List.replicate 240 0)) = true := by decide +kernel
theorem test_wf_cue_rest_of_240_bytes : Instr.wellFormed 6 (.freeze false (List.replicate 240 0)) = false := by
  decide +kernel
theorem test_wf_request_of_3_bytes : Instr.wellFormed 6 (.inserterRequest .lane0 [1, 2, 3]) = false := by decide
theorem test_wf_known_writer_kind : Instr.wellFormed 6 (.writerFrameRefused .w0 0x10 []) = false := by decide
theorem test_wf_known_automation_kind : Instr.wellFormed 6 (.automationFrameRefused 0x36 []) = false := by decide
theorem test_wf_good_inserter_request : Instr.wellFormed 6 (.inserterFrameRefused .lane0 0x60 [1, 2, 3, 4]) = false := by
  decide
theorem test_wf_abort_needs_abort : Instr.wellFormed 6 (.abort .automation (onLine [0xE7, 1, 0xE7])) = false := by decide
theorem test_wf_abort : Instr.wellFormed 6 (.abort .automation (onLine [0xE7, 1, 0xE8, 0xE7])) = true := by decide
theorem test_wf_checkError_needs_mismatch :
    Instr.wellFormed 6 (.checkError .automation (onLine (lineFrame 6 0x15 []))) = false := by decide +kernel
theorem test_wf_sizeError_needs_size :
    Instr.wellFormed 6 (.sizeError .automation (onLine [0xE7, 1, 2, 3, 4, 0xE7])) = false := by decide +kernel
theorem test_wf_ignored_needs_other_address :
    Instr.wellFormed 6 (.frameIgnored (.writer .w0) (onLine (lineFrame 6 0x15 []))) = false := by decide +kernel
theorem test_wf_ignored_broadcast :
    Instr.wellFormed 6 (.frameIgnored (.writer .w0) (onLine (lineFrame 0xFF 0x15 []))) = true := by decide +kernel

/-! ## Links -/

/-- The check bytes 0x70 0x14 are R175 worked outside the model for the bytes 0x06 0x15. -/
theorem test_line_frame : lineFrame 6 0x15 [] = [0xE7, 0x06, 0x15, 0x70, 0x14, 0xE7] := by decide +kernel
/-- R172: a payload byte 0xE7 is sent as 0xE8 0xA7; the check bytes are R175 worked outside the model. -/
theorem test_line_frame_stuffed : lineFrame 6 0x13 [0xE7] = [0xE7, 0x06, 0x13, 0xE8, 0xA7, 0x2A, 0x66, 0xE7] :=
  by decide +kernel
/-- R173: an escaped 0xA8 is 0xE8; any other escaped byte discards the frame, once. -/
theorem test_escape :
    (Receiver.hunting.run (onLine [0xE7, 0xE8, 0xA8, 0xE8, 0x01, 0x02, 0xE8, 0xE7])).2 = [.checkError] := by decide
/-- R173: a byte without its stop bit is no flag, whatever its value. -/
theorem test_no_stop_bit : (Receiver.inFrame.take { value := 0xE7, stop := false }).2 = some .checkError := by decide

/-! ## The time base: the worked sequence of chapter 1 -/

/-- The state before frame event 2 of the lock sequence. -/
def verifying : State :=
  { part with time := { part.time with
      sfc := 121, fod := 121, source := .reference, supervision := true, generator := false
      lock := .verify, candidate := some 900000 } }

theorem test_lock_gained :
    (after (.pulseArrival (some ⟨0x10, 0x00, 0x00, 0x01⟩)) verifying).map
        (fun t => (t.time.sfc, t.time.fod, t.time.lock, t.time.candidate, t.reports.map Report.value))
      = some (122, 900001, .locked, none, [some 899879]) := by decide

theorem test_lock_lost :
    (after (.pulseArrival none) { verifying with time := { verifying.time with
        sfc := 125, fod := 900004, lock := .locked, candidate := none, misses := 2 } }).map
        (fun t => (t.time.sfc, t.time.lock, t.time.misses, t.reports.map Report.value))
      = some (126, .search, 0, [some 900005]) := by decide

/-- R7: ff = 25 is invalid at F = 25 and valid at F = 30. -/
theorem test_timecode_validity :
    timecodeFrames ⟨0x10, 0x00, 0x00, 0x25⟩ .r25 = none
      ∧ timecodeFrames ⟨0x10, 0x00, 0x00, 0x25⟩ .r30 = some 1080025 := by decide

/-- R13's worked conversions at F = 25 with FOD 2,159,990, SFC 500. -/
theorem test_convert_r25 :
    let t : TimeBase := { part.time with sfc := 500, fod := 2159990 }
    t.convert 10 = .ahead 520 ∧ t.convert 2159990 = .due ∧ t.convert 2159900 = .late 90 := by decide

/-- R13's worked conversions at F = 30 with FOD 1,000,000, SFC 500. -/
theorem test_convert_r30 :
    let t : TimeBase := { part.time with rate := .r30, sfc := 500, fod := 1000000 }
    t.convert 2296000 = .ahead 1296500 ∧ t.convert 2296001 = .late 1295999 ∧ t.convert 999000 = .late 1000 := by decide

/-! ## Release timing: the worked cases of chapter 5 -/

/-- The parameters of the worked cases. -/
def params5 : Params := { Params.default 1 with delay := 150 }

/-- An engine with this record. -/
def recorded (release minimum : Nat) : Engine :=
  { queue := [], record := some { release := release, minimum := minimum, ref := 0 }, level := .level0, nextRef := 1 }

theorem test_four_units :
    (let t := timedUnit params5 .r25 Engine.powerOn 10050 (unitOf 36 9925);
      (t.base, t.level, t.minimum, t.release) = (10070, .level0, 60, 10070))
    ∧ (let t := timedUnit params5 .r25 (recorded 10070 60) 10076 (unitOf 42 9966);
      (t.base, t.level, t.minimum, t.release) = (10111, .level0, 70, 10130))
    ∧ (let t := timedUnit params5 .r25 (recorded 10130 70) 10090 (unitOf 20 9992);
      (t.base, t.level, t.minimum, t.release) = (10137, .level1, 29, 10200))
    ∧ (let t := timedUnit params5 .r25 (recorded 10200 29) 10110 (unitOf 40 10006);
      (t.base, t.level, t.minimum, t.release) = (10151, .level2, 34, 10229)) := by decide

theorem test_ceiling :
    (let t := timedUnit params5 .r25 (recorded 10440 60) 10300 (unitOf 30 10000);
      (t.base, t.level, t.minimum, t.release) = (10300, .level2, 25, 10450))
    ∧ (timedUnit params5 .r25 (recorded 10440 60) 10200 (unitOf 30 10000)).release = 10441 := by decide

/-- R89's examples of clamped writes. -/
theorem test_clamped_writes :
    (writeParam (Params.default 1) 4 200).map Prod.snd = some 125 ∧ (writeParam (Params.default 1) 5 20).map Prod.snd = some 38
      ∧ (writeParam (Params.default 1) 4 12).map Prod.snd = some 20
      ∧ (writeParam (Params.default 1) 13 600).map Prod.snd = some 150 := by decide

/-! ## Handover, layout, staging and deletions: the worked sequences of chapters 2 to 4 -/

theorem test_overlap_of_three :
    overlap
      [txt ['c', 'l', 'o', 's', 'e', 'd'], txt ['a', 'l', 'o', 'n', 'g'], txt ['t', 'h', 'e'],
        txt ['b', 'o', 'r', 'd', 'e', 'r'], txt ['u', 'n', 't', 'i', 'l'], txt ['t', 'o', 'm', 'o', 'r', 'r', 'o', 'w']]
      [txt ['B', 'o', 'r', 'd', 'e', 'r'], txt ['u', 'n', 't', 'i', 'l'], txt ['t', 'o', 'm', 'o', 'r', 'r', 'o', 'w'],
        txt ['m', 'o', 'r', 'n', 'i', 'n', 'g'], txt ['.']] = 3 := by decide

/-- The unit A of the worked layout, BLOCK mode, width 24, rows 2, and the "." that fills it. -/
theorem test_block_layout :
    let p := { Params.default 1 with width := 24 }
    let a := layLines p (some (txt ['>', '>']))
      [wd ['G', 'o', 'o', 'd'], wd ['e', 'v', 'e', 'n', 'i', 'n', 'g'], wd ['a', 'n', 'd'],
        wd ['w', 'e', 'l', 'c', 'o', 'm', 'e'], wd ['t', 'o'], wd ['t', 'h', 'e'],
        wd ['p', 'r', 'o', 'g', 'r', 'a', 'm', 'm', 'e']]
    a.map List.length = [19, 24] ∧ placeWord p a { text := txt ['.'], attach := true } = none := by decide

/-- The DELETE 3 of the worked staging sequence. -/
theorem test_staged_delete :
    let e (arrival : Nat) (m : Marks) : Staged := { text := [0x41], attach := false, arrival := arrival, marks := m }
    let w : Writer := { Writer.powerOn with
      role := .standby .lane0
      staging := [e 5000 Marks.empty, e 5003 Marks.empty, e 5010 ⟨true, some 1⟩, e 5012 Marks.empty, e 5013 Marks.empty] }
    ((w.unstage 3).staging.map Staged.arrival, (w.unstage 3).marks) = ([5000, 5003], ⟨true, some 1⟩) := by decide

/-- The DELETE 6 of chapter 4's worked sequence: four words removed, two unreached. -/
theorem test_delete_across_units :
    let word (cs : List Char) : CapWord := wd cs
    let u (ws : List CapWord) : CaptionUnit := { unitOf 1 0 with words := ws, lines := layLines (Params.default 1) none ws }
    let b : Builder := { Builder.powerOn with
      openUnit := some (u [word ['a', 'v', 'o', 'i', 'd'], word ['t', 'h', 'e']])
      provisional := [⟨u [word ['D', 'r', 'i', 'v', 'e', 'r', 's'], word ['s', 'h', 'o', 'u', 'l', 'd']], 7040⟩]
      recent := [txt ['.'], txt ['D'], txt ['s'], txt ['a'], txt ['t']], flush := some 7109 }
    let r := deleteWords (Params.default 1) 6 b
    (r.1.openUnit, r.1.provisional, r.1.recent, r.1.flush, r.2) = (none, [], [txt ['.']], none, 2) := by decide

/-- R63: a head forced out on the frame of its window end is reported with value 1, the least that the rule allows. -/
theorem test_forced_on_its_window_end :
    let head : Provisional := ⟨unitOf 1 0, 7000⟩
    let s := live.setLane .lane0 { live.lane .lane0 with
      frozen := true
      builder := { (live.lane .lane0).builder with
        openUnit := some (unitOf 1 0), provisional := head :: List.replicate 3 ⟨unitOf 1 0, 7005⟩ } }
    (after (.breakMark .w0 []) s).map (fun t => t.reports.map fun x => (x.kind, x.value))
      = some [(.provisionalOverflow, some 1)] := by decide

/-! ## Display and retime: the worked sequences of chapter 6 -/

/-- The RESUME at 20,620: U3 is stale, U4 survives with its release frame raised. -/
theorem test_retime :
    let ln : Lane := { lane0 with
      display := { lane0.display with
        nextReady := true
        next := composedImage lane0.params (Image.blank none) (timed 3 20100 20100 50) }
      engine := { queue := [timed 4 20150 20150 45], record := some ⟨20150, 45, 4⟩, level := .level0, nextRef := 5 } }
    let out := ln.walked 20620
    (ln.staleCount 20620, out.display.nextReady, out.engine.queue.map TimedUnit.release, out.engine.record, out.display.onAir)
      = (1, false, [20620], some ⟨20620, 45, 4⟩, 20620) := by decide

/-- R101: a blank in ROLL mode empties the next image's older rows. -/
theorem test_roll_blank :
    let row (c : Byte) : Option Row := some { text := [c], style := StyleEntry.plain.style }
    emptyUpperRows [row 0x32, row 0x33, row 0x34] = [none, none, row 0x34] := by decide

/-- R111: a word just past midnight is near an expected value just before it. -/
theorem test_distance_over_midnight : timecodeDistance 2160000 1 2159999 = 2 := by decide

/-! ## Cues, store and reports: the worked sequences of chapters 7, 8, 9 and 11 -/

/-- The CLEAR of the worked schedule stands behind the HOLD of its target and before the JOIN. -/
theorem test_schedule_order :
    let e (k : CueKind) (tag target : Nat) : ScheduledCue := { cue := ⟨k, 2, tag, 0⟩, target := target }
    insertCue [e .hold 7 100050, e .join 9 100250] (e .clear 9 100050)
      = [e .hold 7 100050, e .clear 9 100050, e .join 9 100250] := by decide

theorem test_store_values :
    (storeValue 1 0 104, storeValue 2 1 104, storeValue 2 2 104, storeValue 3 0 5)
      = (16777320, 33620072, 33685608, 50331653) := by decide

/-- R141: a speaker code, a 0x1E that is none, a run of spaces, and a unit break. -/
theorem test_script_text :
    readScript (txt ['a', ' ', ' ', 'b'] ++ [0x1E, 0x41] ++ [0x1E, 0x61] ++ [0x0A])
      = [.word (wd ['a']), .word (wd ['b']), .speaker 10, .word (wd ['?', 'a']), .brk] := by decide

/-- The pacing onsets s1 to s4 of chapter 9's worked take. -/
theorem test_pacing_onsets :
    pacingOnsets params5 .r25 70003 [unitOf 40 0, unitOf 20 0, unitOf 60 0, unitOf 30 0] = [70003, 70070, 70108, 70208] := by
  decide

/-- R188: one report as a POLL reply lays it out. -/
theorem test_report_bytes :
    Report.bytes { kind := .handover, lane := some .lane0, writer := some .w1, value := some 3, stamp := 40120 }
      = [0x29, 3, 0, 1, 1, 3, 0, 0, 0, 0xB8, 0x9C, 0, 0, 0, 0] := by decide

/-- R187: a report that finds 32 is dropped and sets the overflow mark. -/
theorem test_report_queue_full :
    let r : Report := { kind := .unitCut, lane := none, writer := none, value := none, stamp := 0 }
    let t := ({ part with reports := List.replicate 32 r }).queueReport r
    (t.reports.length, t.reportOverflow) = (32, true) := by decide

/-- Log entry 9: with no command waiting nothing happens. -/
theorem test_idle : step part = .next part := rfl

/-! ## Witnesses: the machine as a whole -/

/-- A part with a command waiting. -/
def queued : State := { live with pending := [.word .w0 [0, 0x41]] }

theorem witness_StepRunsFrontCommand : queued.pending = .word .w0 [0, 0x41] :: [] := rfl

theorem witness_AddressAndStationCount :
    (∀ straps, Instr.pulseArrival none ≠ .powerOn straps) ∧ live.time.sfc + 1 < 2 ^ 48
      ∧ (after (.pulseArrival none) live).isSome = true :=
  ⟨fun _ h => (nomatch h), by decide, rfl⟩

theorem witness_PagesChangeOnlyAtCommitCompletion :
    (∀ straps, Instr.compareCompletion ≠ .powerOn straps) ∧ Instr.compareCompletion ≠ .commitCompletion
      ∧ exec .compareCompletion live = .next live :=
  ⟨fun _ h => (nomatch h), by decide, rfl⟩

theorem witness_steps : (after (.word .w0 [0, 0x41]) { queued with pending := [] }).isSome = true := rfl

theorem witness_CapacitiesAreKept : queued.withinCapacity ∧ ∃ t, step queued = .next t := by
  refine ⟨⟨?_, ?_, ?_, ?_, ?_, ?_, ?_, ?_, ?_⟩, _, rfl⟩
  · intro l; cases l <;> exact ⟨by decide, by decide, by decide, by decide⟩
  · intro w; cases w <;> decide
  · decide
  · trivial
  · decide
  · intro w; cases w <;> exact ⟨by decide, by decide, fun f hf => absurd hf (by decide +revert)⟩
  · decide
  · intro l; cases l <;> decide
  · intro k; rcases k with w | _ | l
    · cases w <;> decide
    · decide
    · cases l <;> decide

theorem witness_params (group : Nat) (h : group ≤ 255) : (Params.default group).inRange := by
  simp [Params.inRange, Params.default, h]

theorem witness_params_auto (pacing : Pacing) (delay : Nat) (h : delay ≤ 375) :
    Params.inRange { Params.default 1 with pacing := pacing, delay := delay } := by
  simp [Params.inRange, Params.default, h]

theorem witness_params_queued (l : LaneId) : (queued.lane l).params.inRange := by
  cases l
  · exact witness_params 1 (by decide)
  · exact witness_params 2 (by decide)

theorem witness_NumbersStayInRange : (queued.countersWithin ∧ queued.paramsInRange) ∧ ∃ t, step queued = .next t := by
  refine ⟨⟨⟨?_, ?_, ?_⟩, ?_, ?_, ?_, ?_, ?_⟩, _, rfl⟩
  · intro l; cases l <;> (unfold Counters.within; decide)
  · intro w; cases w <;> decide
  · intro k; rcases k with w | _ | l
    · cases w <;> (unfold LinkState.countsWithin; decide)
    · unfold LinkState.countsWithin; decide
    · cases l <;> (unfold LinkState.countsWithin; decide)
  · exact witness_params_queued
  · intro w; cases w <;> decide
  · decide
  · decide
  · decide

theorem witness_RolesStayLawful : queued.rolesLawful ∧ ∃ t, step queued = .next t := by
  refine ⟨⟨?_, ?_, ?_⟩, _, rfl⟩
  · intro w v l; cases w <;> cases v <;> cases l <;> decide
  · intro w v l; cases w <;> cases v <;> cases l <;> decide
  · intro w _; cases w <;> exact ⟨rfl, rfl, rfl⟩

theorem witness_TimeBaseStaysLawful : queued.time.lawful ∧ ∃ t, step queued = .next t :=
  ⟨⟨by decide, by decide, fun _ h => (nomatch h), by decide, fun h => absurd rfl h, by decide, rfl, rfl⟩, _, rfl⟩

theorem witness_TimelinesStayLawful : queued.timelinesLawful ∧ ∃ t, step queued = .next t := by
  refine ⟨fun l => ?_, _, rfl⟩
  cases l <;> exact
    ⟨⟨fun h => (nomatch h), trivial, fun t ht => absurd ht (List.not_mem_nil), rfl, fun h => (nomatch h)⟩,
      ⟨by decide, rfl⟩, witness_params_queued _, fun u h => (nomatch h), fun q h => absurd h (List.not_mem_nil)⟩

theorem witness_StoreStaysLawful : queued.storeLawful ∧ ∃ t, step queued = .next t := by
  refine ⟨⟨rfl, fun c hc => absurd hc (List.not_mem_nil), fun b => ?_, fun p => ?_, fun b => ?_, fun l g => ?_, ?_, ?_, ?_⟩,
    _, rfl⟩
  · cases b <;> exact ⟨rfl, fun c hc => absurd hc (List.not_mem_nil)⟩
  · have h : queued.store.page p = .empty := by
      show ((Vector.replicate 512 PageState.empty)[p]?).getD .empty = .empty
      by_cases hp : p < 512 <;> simp [hp]
    rw [h]
    exact ⟨fun x => (nomatch x), fun x => x.elim fun _ y => (nomatch y)⟩
  · cases b <;> exact ⟨fun x => (nomatch x), fun x => x.elim fun _ y => (nomatch y)⟩
  · cases l <;> exact ⟨fun x => (nomatch x), fun x => (nomatch x)⟩
  · intro g l h; exact (nomatch h)
  · intro g x h
    have : queued.store.segment g = none := by
      show ((Vector.replicate 64 (none : Option Segment))[g]?).getD none = none
      by_cases hg : g < 64 <;> simp [hg]
    rw [this] at h; exact (nomatch h)
  · intro l; cases l <;> exact ⟨fun x => (nomatch x), fun x => x.elim fun _ y => (nomatch y)⟩

/-! ## Witnesses: frames on the line -/

theorem witness_LineFrameRoundTrip :
    Receiver.hunting.betweenFrames = true ∧ (List.replicate 240 (0xE7 : Byte)).length ≤ 240 :=
  ⟨rfl, by rw [List.length_replicate]⟩

theorem witness_RowsAgreeWithLine :
    (List.replicate 240 (0xE8 : Byte)).length ≤ 240
      ∧ (∀ w, (live.link (.writer w)).rx.betweenFrames = true) ∧ (∀ l, (live.link (.inserter l)).rx.betweenFrames = true)
      ∧ (live.link .automation).rx.betweenFrames = true ∧ (0x36, Instr.engineReset) ∈ requestTable
      ∧ (List.replicate 239 (0xE8 : Byte)).length ≤ 239 ∧ (11, CueKind.finish, Instr.endCue) ∈ cueTable
      ∧ live.addressByte ≠ 0xFF :=
  ⟨by rw [List.length_replicate], fun w => by cases w <;> rfl, fun l => by cases l <;> rfl, rfl, by simp [requestTable],
    by rw [List.length_replicate], by simp [cueTable], by decide⟩

theorem witness_TransmitSendsEarliestFrame :
    let s := { live with links := live.links.set .automation { live.links.automation with waiting := [ackOf 0x28 none] } }
    (s.link .automation).waiting = ackOf 0x28 none :: [] ∧ 1 ≤ s.partAddress ∧ s.partAddress ≤ 16
      ∧ (ackOf 0x28 none).payload.length ≤ 240 := ⟨rfl, by decide, by decide, by decide⟩

theorem witness_UndeliveredFramesAreOnlyCounted_between : (live.link .automation).rx.betweenFrames = true := rfl
theorem witness_UndeliveredFramesAreOnlyCounted_abort : (List.replicate 244 (0xE7 : Byte)).length ≤ 244 := by
  rw [List.length_replicate]
theorem witness_UndeliveredFramesAreOnlyCounted_check :
    let body : List Byte := [6, 0x15, 0x70, 0x15]
    4 ≤ body.length ∧ body.length ≤ 244
      ∧ body.drop (body.length - 2) ≠ checkBytes (crc (body.take (body.length - 2))) := by decide +kernel
theorem witness_UndeliveredFramesAreOnlyCounted_short : 1 ≤ ([6, 0x15, 0x70] : List Byte).length ∧ ([6, 0x15, 0x70] : List Byte).length ≤ 3 := by
  decide
theorem witness_UndeliveredFramesAreOnlyCounted_long : 244 < (List.replicate 245 (0 : Byte)).length := by
  rw [List.length_replicate]; decide
theorem witness_UndeliveredFramesAreOnlyCounted_ignored :
    ([] : List Byte).length ≤ 240 ∧ (0xFF : Byte) ≠ BitVec.ofNat 8 live.partAddress
      ∧ ((0xFF : Byte) ≠ 0xFF ∨ Link.writer .w0 ≠ .automation) := by decide
theorem witness_UndeliveredFramesAreOnlyCounted_ignored_on_A :
    ([] : List Byte).length ≤ 240 ∧ (7 : Byte) ≠ BitVec.ofNat 8 live.partAddress
      ∧ ((7 : Byte) ≠ 0xFF ∨ Link.automation ≠ .automation) := by decide

/-! ## Witnesses: the time base -/

/-- A part LOCKED to the reference. -/
def locked : State :=
  { live with time := { live.time with
      source := .reference, supervision := true, generator := false, lock := .locked, misses := 2 } }

theorem witness_InternalFrameEvents_generator :
    live.time.sfc + 1 < 2 ^ 48 ∧ live.time.source = .internal ∧ live.time.generator = true
      ∧ ¬ (live.time.lock = .locked ∧ 2 ≤ live.time.misses) := by decide
theorem witness_InternalFrameEvents_supervision :
    verifying.time.sfc + 1 < 2 ^ 48 ∧ verifying.time.source = .reference ∧ verifying.time.supervision = true
      ∧ ¬ (verifying.time.lock = .locked ∧ 2 ≤ verifying.time.misses) ∧ verifying.canReport :=
  ⟨by decide, rfl, rfl, by decide, by unfold State.canReport; decide⟩

theorem witness_VerifyJudgesTheWord :
    verifying.time.source = .reference ∧ verifying.time.lock = .verify ∧ verifying.time.candidate = some 900000
      ∧ verifying.time.sfc + 1 < 2 ^ 48 ∧ verifying.canReport
      ∧ (some (TimecodeWord.mk 0x10 0x00 0x00 0x01)).bind (fun x => timecodeFrames x verifying.time.rate) = some 900001
      ∧ (none : Option TimecodeWord).bind (fun x => timecodeFrames x verifying.time.rate) = none :=
  ⟨rfl, rfl, rfl, by decide, by unfold State.canReport; decide, by decide, rfl⟩

theorem witness_VerifyJudgesTheWord_search :
    let s := { verifying with time := { verifying.time with lock := .search, candidate := none } }
    s.time.source = .reference ∧ s.time.lock = .search ∧ s.time.sfc + 1 < 2 ^ 48 := ⟨rfl, rfl, by decide⟩

theorem witness_LockedCountsMisses :
    locked.time.source = .reference ∧ locked.time.lock = .locked ∧ locked.time.sfc + 1 < 2 ^ 48 ∧ locked.time.misses ≤ 2
      ∧ locked.canReport := ⟨rfl, rfl, by decide, by decide, by unfold State.canReport; decide⟩

theorem witness_SameFrameWindow :
    let s := { live with time := { live.time with window := true } }
    s.time.source = .internal ∧ s.time.window = true ∧ s.canReport ∧ (s.time.lock = .search ∨ s.time.lock = .locked) :=
  ⟨rfl, rfl, by unfold State.canReport; decide, .inl rfl⟩

theorem witness_SameFrameWindow_closed :
    let s := { live with
      time := { live.time with lock := .locked, misses := 2 }
      reports := List.replicate 30 (live.note .engineReset none none none) }
    s.time.source = .internal ∧ s.time.window = false ∧ (s.time.lock = .search ∨ s.time.lock = .locked)
      ∧ s.time.sfc + 1 < 2 ^ 48 ∧ s.time.misses ≤ 2 ∧ s.reports.length ≤ 30 :=
  ⟨rfl, rfl, .inr rfl, by decide, by decide, by decide⟩

/-! ## Witnesses: the builder and the timing engine -/

/-- The part with lane 0 changed. -/
def withLane0 (f : Lane → Lane) : State := live.setLane .lane0 (f (live.lane .lane0))

/-- Lane 0 with an open unit of two words whose flush timer ends now. -/
def opened : State :=
  withLane0 fun ln => { ln with builder := { ln.builder with
    openUnit := some { unitOf 3 6950 with lines := [txt ['a', ' ', 'b']], words := [wd ['a'], wd ['b']] }
    recent := [txt ['a'], txt ['b']], flush := some 7000 } }

/-- The unit that is open in `opened`. -/
def openUnit : CaptionUnit := { unitOf 3 6950 with lines := [txt ['a', ' ', 'b']], words := [wd ['a'], wd ['b']] }

theorem witness_closesQuietly : opened.closesQuietly .lane0 :=
  ⟨by decide, fun p hp => absurd hp (List.not_mem_nil), by decide⟩

theorem witness_FlushClosesTheUnit :
    (opened.lane .lane0).builder.openUnit = some openUnit ∧ (opened.lane .lane0).builder.flush = some 7000
      ∧ opened.closesQuietly .lane0 ∧ 7000 ≤ opened.time.sfc :=
  ⟨rfl, rfl, witness_closesQuietly, by decide⟩

/-- Lane 0 with a due provisional unit, a record, and the unit it names in the queue. -/
def due (frozen : Bool) (lamMax : Nat) : State :=
  withLane0 fun ln => { ln with
    frozen := frozen
    params := { ln.params with lamMax := lamMax }
    builder := { ln.builder with provisional := [⟨unitOf 30 6950, 7000⟩] }
    engine := { queue := [timed 1 7000 7020 60], record := some ⟨7020, 60, 1⟩, level := .level0, nextRef := 2 } }

/-- What every clause about the due unit of `due` asks but for its lateness, with a unit behind it whose window is open. -/
theorem witness_due (frozen : Bool) (lamMax : Nat) :
    ((due frozen lamMax).lane .lane0).state = .running
      ∧ ((due frozen lamMax).lane .lane0).builder.provisional = ⟨unitOf 30 6950, 7000⟩ :: []
      ∧ 7000 ≤ (due frozen lamMax).time.sfc
      ∧ (∀ q ∈ ([⟨unitOf 30 6950, 7001⟩] : List Provisional).head?, (due frozen lamMax).time.sfc < q.windowEnd)
      ∧ (unitOf 30 6950).onset = some 6950 ∧ (unitOf 30 6950).origin = .live .w0
      ∧ ((due frozen lamMax).lane .lane0).engine.record = some ⟨7020, 60, 1⟩
      ∧ ((due frozen lamMax).lane .lane0).engine.queue.length < 32 ∧ (due frozen lamMax).canReport :=
  ⟨rfl, rfl, Nat.le_refl _, fun q h => by cases h; exact Nat.lt_succ_self _, rfl, rfl, rfl, by show 1 < 32; decide,
    by show 0 < 32; decide⟩

/-- The unit is as late as Λmax: it is timed and nothing is cut, on a FROZEN lane and on one that composes. -/
theorem witness_DueUnitIsTimed :
    (∀ x, ((due true 80).lane .lane0).engine.record = some x → (x.release : Int) + x.minimum
      ≤ max (6950 + ((due true 80).lane .lane0).params.delay - ((due true 80).lane .lane0).params.lead) (due true 80).time.sfc
        + ((due true 80).lane .lane0).params.lamMax)
      ∧ ((due false 80).lane .lane0).frozen = false ∧ ((due false 80).lane .lane0).display.nextReady = false :=
  ⟨fun x h => by cases h; decide, rfl, rfl⟩

theorem witness_DueUnitIsTimed_full :
    let s := (due false 80).setLane .lane0 { (due false 80).lane .lane0 with engine :=
      { ((due false 80).lane .lane0).engine with queue := List.replicate 32 (timed 1 7000 7020 60) } }
    (s.lane .lane0).engine.queue = timed 1 7000 7020 60 :: List.replicate 31 (timed 1 7000 7020 60)
      ∧ (s.lane .lane0).engine.queue.length = 32 ∧ s.canReport :=
  ⟨rfl, by decide, by unfold State.canReport; decide⟩

/-- R97, R98: the worked rows: a line on three BLOCK rows, a line over two ROLL rows, and over a blank. -/
theorem test_composed_rows :
    let u := { unitOf 0 0 with lines := [txt ['c']] }
    let row (c : Char) : Option Row := some { text := txt [c], style := StyleEntry.plain.style }
    let air : Image := { Image.blank none with rows := [row 'a', row 'b'] }
    let p : Params := { params5 with rows := 3 }
    p.rowsOf air u = [none, none, row 'c'] ∧ ({ p with mode := .roll, rows := 2 } : Params).rowsOf air u = [row 'b', row 'c']
      ∧ ({ p with mode := .roll, rows := 2 } : Params).rowsOf (Image.blank none) u = [none, row 'c'] := by decide

/-- The unit is later than Λmax by one frame, and the record's unit stands in the queue. -/
theorem witness_LateUnitCutsThePrevious :
    ((7000 : Nat) : Int)
        = max (6950 + ((due false 79).lane .lane0).params.delay - ((due false 79).lane .lane0).params.lead)
          (due false 79).time.sfc
      ∧ ((due false 79).lane .lane0).params.lamMax < 7020 + 60 - 7000
      ∧ ((due false 79).lane .lane0).engine.queue = [] ++ timed 1 7000 7020 60 :: [] ∧ (timed 1 7000 7020 60).ref = 1
      ∧ noneIs ([] ++ []) ⟨7020, 60, 1⟩ ∧ ((due false 79).lane .lane0).display.nextReady = false
      ∧ ((due false 79).lane .lane0).display.air.isNot ⟨7020, 60, 1⟩ :=
  ⟨by decide, by decide, rfl, rfl, fun _ h => absurd h (List.not_mem_nil), rfl, fun _ h => (nomatch h)⟩

/-- `due` with the record's unit gone from the queue, and with this display set. -/
def elsewhere (f : DisplaySet → DisplaySet) : State :=
  (due false 79).setLane .lane0 { (due false 79).lane .lane0 with
    engine := { ((due false 79).lane .lane0).engine with queue := [] }
    display := f ((due false 79).lane .lane0).display }

theorem witness_LateUnitCutsThePrevious_next :
    let s := elsewhere fun d => { d with nextReady := true, next := { d.next with unit := some (timed 1 7000 7020 60) } }
    (s.lane .lane0).display.nextReady = true ∧ (s.lane .lane0).display.next.unit = some (timed 1 7000 7020 60)
      ∧ noneIs (s.lane .lane0).engine.queue ⟨7020, 60, 1⟩ ∧ (s.lane .lane0).display.air.isNot ⟨7020, 60, 1⟩ :=
  ⟨rfl, rfl, fun _ h => absurd h (List.not_mem_nil), fun _ h => (nomatch h)⟩

theorem witness_LateUnitCutsThePrevious_air :
    let s := elsewhere fun d => { d with air := { d.air with unit := some (timed 1 7000 7020 60) } }
    (s.lane .lane0).display.air.unit = some (timed 1 7000 7020 60) ∧ noneIs (s.lane .lane0).engine.queue ⟨7020, 60, 1⟩
      ∧ (s.lane .lane0).display.nextReady = false ∧ (timed 1 7000 7020 60).unit.cut = false :=
  ⟨rfl, fun _ h => absurd h (List.not_mem_nil), rfl, rfl⟩

theorem witness_LateUnitCutsThePrevious_gone :
    let s := elsewhere id
    noneIs (s.lane .lane0).engine.queue ⟨7020, 60, 1⟩ ∧ (s.lane .lane0).display.nextReady = false
      ∧ (s.lane .lane0).display.air.isNot ⟨7020, 60, 1⟩ :=
  ⟨fun _ h => absurd h (List.not_mem_nil), rfl, fun _ h => (nomatch h)⟩

/-! ## Witnesses: writer messages -/

theorem witness_typesOn : opened.typesOn .w0 .lane0 := ⟨rfl, rfl, rfl, fun h => (nomatch h)⟩
theorem witness_typesOn_live : live.typesOn .w0 .lane0 := ⟨rfl, rfl, rfl, fun h => (nomatch h)⟩

/-- A word of 24 characters. -/
def longest : Text := List.replicate 24 0x7E

theorem witness_text :
    1 ≤ longest.length ∧ longest.length ≤ 24 ∧ ∀ c ∈ longest, 0x21 ≤ c.toNat ∧ c.toNat ≤ 0x7E := by decide

theorem witness_WordIsLaid_creates :
    live.typesOn .w0 .lane0 ∧ live.styles[(live.lane .lane0).builder.style]? = some StyleEntry.plain
      ∧ (live.lane .lane0).builder.openUnit = none := ⟨witness_typesOn_live, by decide, rfl⟩

/-- `opened` with this width and this many rows. -/
def narrow (width rows : Nat) : State :=
  opened.setLane .lane0
    { opened.lane .lane0 with params := { (opened.lane .lane0).params with width := width, rows := rows } }

theorem witness_WordIsLaid_open (width rows : Nat) :
    (narrow width rows).typesOn .w0 .lane0 ∧ ((narrow width rows).lane .lane0).builder.openUnit = some openUnit
      ∧ openUnit.lines = [] ++ [txt ['a', ' ', 'b']] ∧ txt ['a', ' ', 'b'] ≠ [] :=
  ⟨⟨rfl, rfl, rfl, fun h => (nomatch h)⟩, rfl, rfl, by decide⟩

theorem witness_WordIsLaid_style :
    (narrow 27 2).styles[((narrow 27 2).lane .lane0).builder.style]? = some StyleEntry.plain
      ∧ (narrow 28 2).styles[((narrow 28 2).lane .lane0).builder.style]? = some StyleEntry.plain := by decide

/-- The longest word just fits the line at width 28, and not at width 27. -/
theorem witness_WordIsLaid_fits :
    (txt ['a', ' ', 'b']).length + (if (0 : Byte).getLsbD 0 then 0 else 1) + longest.length = 28 := by decide

theorem witness_WordIsLaid_new_line :
    ([] : List Text).length + 1 < (match ((narrow 27 2).lane .lane0).params.mode with
      | .block => ((narrow 27 2).lane .lane0).params.rows | .roll => 1) := by decide

theorem witness_WordIsLaid_full :
    (match ((narrow 27 1).lane .lane0).params.mode with
      | .block => ((narrow 27 1).lane .lane0).params.rows | .roll => 1) ≤ ([] : List Text).length + 1
      ∧ (narrow 27 1).closesQuietly .lane0 :=
  ⟨by decide, ⟨by decide, fun p hp => absurd hp (List.not_mem_nil), by decide⟩⟩

/-- W1 STANDBY with two staged words, of which the second carries marks. -/
def staged : List Staged :=
  [{ text := txt ['a'], attach := false, arrival := 6990, marks := Marks.empty },
    { text := txt ['b'], attach := false, arrival := 6993, marks := ⟨true, some 1⟩ }]

theorem witness_StandbyMessagesAreStaged :
    (live.writer .w1).role = .standby .lane0 ∧ 1 ≤ longest.length ∧ longest.length ≤ 24
      ∧ (live.writer .w1).staging.length < 64 ∧ live.canReport :=
  ⟨rfl, by decide, by decide, by decide, by unfold State.canReport; decide⟩

/-- W1 STANDBY with a full staging list, its overflow already reported or not, and no room for a third report. -/
def overfull (reported : Bool) : State :=
  { live.setWriter .w1 { live.writer .w1 with
      staging := staged ++ List.replicate 62 ⟨txt ['c'], false, 6995, Marks.empty⟩, overflowReported := reported } with
    reports := List.replicate 30 (live.note .engineReset none none none) }

theorem witness_StandbyMessagesAreStaged_overflow (reported : Bool) :
    ((overfull reported).writer .w1).role = .standby .lane0
      ∧ ((overfull reported).writer .w1).staging = ⟨txt ['a'], false, 6990, Marks.empty⟩
        :: ⟨txt ['b'], false, 6993, ⟨true, some 1⟩⟩ :: List.replicate 62 ⟨txt ['c'], false, 6995, Marks.empty⟩
      ∧ ((overfull reported).writer .w1).staging.length = 64 ∧ (overfull reported).reports.length ≤ 30 :=
  ⟨rfl, rfl, by cases reported <;> decide, by cases reported <;> decide⟩

theorem witness_OnAirMessagesAreSuppressed_script :
    let s := withLane0 fun ln => { ln with source := .script }
    (s.writer .w0).role = .onAir .lane0 ∧ (s.lane .lane0).state = .running
      ∧ ((s.lane .lane0).source = .script ∨ (LaneId.lane0 = .lane1 ∧ s.following = true)) := ⟨rfl, rfl, .inl rfl⟩

theorem witness_OnAirMessagesAreSuppressed_following :
    let s := { live.setWriter .w3 { live.writer .w3 with role := .onAir .lane1 } with following := true }
    (s.writer .w3).role = .onAir .lane1 ∧ (s.lane .lane1).state = .running
      ∧ ((s.lane .lane1).source = .script ∨ (LaneId.lane1 = .lane1 ∧ s.following = true)) := ⟨rfl, rfl, .inr ⟨rfl, rfl⟩⟩

theorem witness_BreakAndSpeaker :
    opened.typesOn .w0 .lane0 ∧ opened.closesQuietly .lane0 ∧ (opened.lane .lane0).builder.openUnit = some openUnit
      ∧ opened.canReport := ⟨witness_typesOn, witness_closesQuietly, rfl, by unfold State.canReport; decide⟩

theorem witness_BreakAndSpeaker_nothing_open :
    live.typesOn .w0 .lane0 ∧ live.closesQuietly .lane0 ∧ (live.lane .lane0).builder.openUnit = none :=
  ⟨witness_typesOn_live, ⟨by decide, fun p hp => absurd hp (List.not_mem_nil), by decide⟩, rfl⟩

/-- `opened` with four units on the provisional list, of which the first ends its window at this frame. -/
def crowded (windowEnd : Nat) : State :=
  opened.setLane .lane0 { opened.lane .lane0 with builder := { (opened.lane .lane0).builder with
    provisional := ⟨unitOf 30 6950, windowEnd⟩ :: List.replicate 3 ⟨unitOf 30 6960, 7001⟩ } }

theorem witness_BreakAndSpeaker_full (windowEnd : Nat) :
    (crowded windowEnd).typesOn .w0 .lane0 ∧ ((crowded windowEnd).lane .lane0).builder.openUnit = some openUnit
      ∧ ((crowded windowEnd).lane .lane0).builder.provisional
        = ⟨unitOf 30 6950, windowEnd⟩ :: List.replicate 3 ⟨unitOf 30 6960, 7001⟩
      ∧ ((crowded windowEnd).lane .lane0).builder.provisional.length = 4
      ∧ (∀ q ∈ (List.replicate 3 (⟨unitOf 30 6960, 7001⟩ : Provisional)).head?, (crowded windowEnd).time.sfc < q.windowEnd)
      ∧ 0 < ((crowded windowEnd).lane .lane0).params.correction ∧ (unitOf 30 6950).onset = some 6950
      ∧ (unitOf 30 6950).origin = .live .w0 ∧ (crowded windowEnd).fitsBehind .lane0 6950 ∧ (crowded windowEnd).canReport :=
  ⟨⟨rfl, rfl, rfl, fun h => (nomatch h)⟩, rfl, rfl, rfl, fun q h => by cases h; exact Nat.lt_succ_self 7000,
    Nat.succ_pos 9, rfl, rfl, ⟨Nat.succ_pos 31, fun _ h => (nomatch h)⟩, Nat.succ_pos 31⟩

/-- Lane 0 with an open unit of two words behind provisional units of three words and of one. -/
def reachable : State :=
  opened.setLane .lane0 { opened.lane .lane0 with builder := { (opened.lane .lane0).builder with
    provisional := [⟨{ unitOf 5 6900 with words := [wd ['c'], wd ['d'], wd ['e']] }, 7001⟩,
      ⟨{ unitOf 1 6940 with words := [wd ['f']] }, 7002⟩] } }

theorem witness_OnAirDelete :
    reachable.typesOn .w0 .lane0 ∧ (255 : Byte) ≠ 0 ∧ (reachable.lane .lane0).builder.unitsHoldWords ∧ reachable.canReport :=
  ⟨⟨rfl, rfl, rfl, fun h => (nomatch h)⟩, by decide,
    ⟨fun u h => by cases h; decide, by decide⟩,
    by unfold State.canReport; decide⟩

/-- A count of 1 shortens the open unit; 2 removes it; 4 shortens the unit of three words; 6 takes all there is; 255, taken
as 16, leaves 10 out of reach. -/
theorem witness_OnAirDelete_counts :
    let b := (reachable.lane .lane0).builder
    openUnit.words = [wd ['a']] ++ [wd ['b']] ∧ [wd ['b']].length = min (1 : Byte).toNat 16
      ∧ wordsOf (b.reached []) = min (2 : Byte).toNat 16
      ∧ wordsOf (b.reached (b.provisional.drop 1)) + [wd ['e']].length = min (4 : Byte).toNat 16
      ∧ wordsOf (b.reached b.provisional) = min (6 : Byte).toNat 16
      ∧ wordsOf (b.reached b.provisional) < min (255 : Byte).toNat 16 := by decide

theorem witness_OnAirDelete_late :
    live.typesOn .w0 .lane0 ∧ wordsOf ((live.lane .lane0).builder.reached []) < min (1 : Byte).toNat 16 :=
  ⟨witness_typesOn_live, by decide⟩

theorem witness_StagedDelete :
    let s := live.setWriter .w1 { live.writer .w1 with staging := staged }
    (s.writer .w1).role = .standby .lane0 ∧ (1 : Byte) ≠ 0 ∧ (s.writer .w1).staging ≠ [] := ⟨rfl, by decide, by decide⟩

theorem witness_TakeExchangesRoles :
    let s := live.setLane .lane0 { live.lane .lane0 with state := .stopped }
    (s.writer .w1).role = .standby .lane0 ∧ (s.lane .lane0).state = .stopped
      ∧ (∀ u, (s.writer u).role = .onAir .lane0 ↔ u = .w0) ∧ s.canReport :=
  ⟨rfl, rfl, fun u => by cases u <;> decide, by unfold State.canReport; decide⟩

/-- W1 STANDBY with two staged words, the first of which ends the lane, and lane 0 with an open unit and this source. -/
def relayed (source : Source) : State :=
  (withLane0 fun ln => { ln with
    source := source
    builder := { (opened.lane .lane0).builder with recent := [txt ['x'], txt ['A']] } }).setWriter .w1
      { live.writer .w1 with staging := staged }

theorem witness_HandoverDropsTheOverlap (source : Source) :
    ((relayed source).lane .lane0).state = .running
      ∧ (∀ u, ((relayed source).writer u).role = .standby .lane0 ↔ u = .w1)
      ∧ (∀ u, ((relayed source).writer u).role = .onAir .lane0 ↔ some WriterId.w0 = some u)
      ∧ 1 = overlap ((relayed source).lane .lane0).builder.recent (((relayed source).writer .w1).staging.map Staged.text)
      ∧ ((relayed source).lane .lane0).builder.provisional.length + (((relayed source).writer .w1).staging.length - 1) ≤ 3
      ∧ (∀ p ∈ ((relayed source).lane .lane0).builder.provisional, (relayed source).time.sfc < p.windowEnd)
      ∧ 0 < ((relayed source).lane .lane0).params.correction ∧ ((relayed source).lane .lane0).builder.style < 16
      ∧ (relayed source).styleLimit ≤ 16 ∧ (relayed source).canAnswer
      ∧ (relayed source).reports.length + (((relayed source).writer .w1).staging.length - 1) ≤ 30 :=
  by
  cases source <;> exact
    ⟨rfl, fun u => by cases u <;> decide, fun u => by cases u <;> decide, by decide, by decide,
      fun p hp => absurd hp (List.not_mem_nil), by decide, by decide, by decide, by unfold State.canAnswer; decide, by decide⟩

theorem witness_HandoverDropsTheOverlap_replays :
    (false = true ↔ ((relayed .live).lane .lane0).source = .script
      ∨ (LaneId.lane0 = .lane1 ∧ (relayed .live).following = true)) := by decide

theorem witness_HandoverDropsTheOverlap_suppresses :
    (true = true ↔ ((relayed .script).lane .lane0).source = .script
      ∨ (LaneId.lane0 = .lane1 ∧ (relayed .script).following = true)) := by decide

/-- With no outgoing writer nothing overlaps, and the two staged words are replayed. -/
theorem witness_HandoverDropsTheOverlap_alone :
    let s := (relayed .live).setWriter .w0 { live.writer .w0 with role := .idle }
    (∀ u, (s.writer u).role = .standby .lane0 ↔ u = .w1) ∧ (∀ u, (s.writer u).role = .onAir .lane0 ↔ none = some u)
      ∧ (s.lane .lane0).builder.provisional.length + ((s.writer .w1).staging.length - 0) ≤ 3 :=
  ⟨fun u => by cases u <;> decide, fun u => by cases u <;> decide, by decide⟩

theorem witness_OverlapIsTheLargest :
    overlap [txt ['x'], txt ['a']] [txt ['A'], txt ['b']] < 2 ∧ 2 ≤ min 8 (min 2 2) := by decide

theorem witness_RefusedWriterFrames_kind : isWriterKind 0x16 = false := by decide
theorem witness_RefusedWriterFrames_length : [0x01] ≠ ([] : List Byte) ∧ ([] : List Byte).length ≠ 1 := by decide
theorem witness_RefusedWriterFrames_idle : (live.writer .w2).role = .idle ∧ (5 : Byte) = 5 := ⟨rfl, rfl⟩
theorem witness_RefusedWriterFrames_stopped :
    let s := live.setLane .lane0 { live.lane .lane0 with state := .stopped }
    ∃ l, (s.writer .w0).role = .onAir l ∧ (s.lane l).state = .stopped ∧ (8 : Byte) = 8 := ⟨.lane0, rfl, rfl, rfl⟩
theorem witness_RefusedWriterFrames_passes :
    live.passesRole .w0 ∧ live.passesRole .w1 ∧ 24 < (List.replicate 25 (0x41 : Byte)).length :=
  ⟨⟨.lane0, .inr ⟨rfl, rfl⟩⟩, ⟨.lane0, .inl rfl⟩, by decide⟩
theorem witness_RefusedWriterFrames_take : ∀ l, (live.writer .w0).role ≠ .standby l := by
  intro l; cases l <;> decide

/-! ## Witnesses: requests on link A -/

theorem witness_canAnswer : live.canAnswer := by unfold State.canAnswer; decide
theorem witness_canReport : live.canReport := by unfold State.canReport; decide

theorem witness_HeldBackAndRefusedFrames_held :
    let s := { live with links := live.links.set .automation { live.links.automation with
      waiting := List.replicate 4 (ackOf 0x28 none) } }
    4 ≤ s.links.automation.waiting.length ∧ (0x20, Instr.configureLane) ∈ requestTable :=
  ⟨by decide, by simp [requestTable]⟩

theorem witness_HeldBackAndRefusedFrames_refused :
    live.canAnswer ∧ isAutomationKind 0x37 = false ∧ isAutomationKind 0x1F = false
      ∧ (0x36, Instr.engineReset) ∈ requestTable ∧ requestLengthOk 0x36 1 = false :=
  ⟨witness_canAnswer, by decide, by decide, by simp [requestTable], by decide⟩

theorem witness_SettingRequests_writer : live.canAnswer ∧ 3 < (4 : Byte).toNat := ⟨witness_canAnswer, by decide⟩

theorem witness_SettingRequests_style :
    live.canAnswer ∧ (15 : Byte).toNat ≤ 15 ∧ (List.replicate 8 (0x7E : Byte)).length ≤ 8
      ∧ ([.white, .yellow, .cyan, .green, .magenta, .red, .blue] : List Colour)[(0xFE : Byte).toNat % 8]? = some .blue
      ∧ ∀ c ∈ List.replicate 8 (0x7E : Byte), 0x21 ≤ c.toNat ∧ c.toNat ≤ 0x7E :=
  ⟨witness_canAnswer, by decide, by decide, by decide, by decide⟩

theorem witness_SettingRequests_style_refused :
    15 < (16 : Byte).toNat ∧ (0x17 : Byte).toNat % 8 = 7 ∧ 8 < (List.replicate 9 (0x41 : Byte)).length
      ∧ (List.replicate 238 (0x41 : Byte)).length ≤ 238
      ∧ ∃ c ∈ ([0x20] : Text), ¬ (0x21 ≤ c.toNat ∧ c.toNat ≤ 0x7E) :=
  ⟨by decide, by decide, by decide, by decide +kernel, 0x20, by decide, by decide⟩

theorem witness_ConfigureLaneParameters :
    live.canAnswer ∧ 1 = (1 : Byte).toNat + 256 * (0 : Byte).toNat ∧ 256 = (0 : Byte).toNat + 256 * (1 : Byte).toNat
      ∧ plainParams.length = 7 ∧ 1 < (2 : Byte).toNat ∧ 19 < (20 : Byte).toNat :=
  ⟨witness_canAnswer, by decide, by decide, by decide, by decide, by decide⟩

theorem witness_ConfigureLaneParameters_running : live.canAnswer ∧ (live.lane .lane0).state = .running :=
  ⟨witness_canAnswer, rfl⟩

theorem witness_ConfigureLaneParameters_layout :
    let s := live.setLane .lane0 { live.lane .lane0 with state := .stopped, deck := bareDeck (.ready 12) none }
    s.canAnswer ∧ (s.lane .lane0).state = .stopped ∧ s.canReport ∧ (s.lane .lane0).deck.state = .ready 12
      ∧ clamp 24 42 24 ≠ (s.lane .lane0).params.width :=
  ⟨by unfold State.canAnswer; decide, rfl, by unfold State.canReport; decide, rfl, by decide⟩

theorem witness_AssignDisplacesTheHolder :
    (live.writer .w2).role = .idle ∧ (∀ u, (live.writer u).role = .onAir .lane0 ↔ u = .w0)
      ∧ (live.lane .lane0).builder.openUnit = none ∧ live.canAnswer :=
  ⟨rfl, fun u => by cases u <;> decide, rfl, witness_canAnswer⟩

theorem witness_StartAndStop :
    part.canAnswer ∧ (part.lane .lane1).state = .stopped ∧ live.canAnswer ∧ (live.lane .lane1).state = .running
      ∧ (live.lane .lane1).deck.pendingTake = none ∧ ∀ g, (live.lane .lane1).deck.state ≠ .playing g :=
  ⟨by unfold State.canAnswer; decide, rfl, witness_canAnswer, rfl, rfl, fun g h => (nomatch h)⟩

/-! ## Witnesses: the script store -/

/-- The part with the store engine and its buffer and page as an operation in flight leaves them. -/
def withEngine (e : StoreEngine) : State := { live with store := { live.store with engine := e } }

theorem witness_LoadBufferWritesTheRun :
    live.canAnswer ∧ (live.store.buffer .bufB).locked = false ∧ (live.store.buffer .bufB).chars.wf = true
      ∧ (95 : Byte).toNat + ([0x41] : List Byte).length ≤ 96 := ⟨witness_canAnswer, rfl, rfl, by decide⟩

theorem witness_CommitAndStoreReset :
    live.canAnswer ∧ (0xFF : Byte).toNat + 256 * (1 : Byte).toNat ≤ 511 ∧ live.store.engine = .idle
      ∧ (withEngine (.commit .bufA 511)).canAnswer
      ∧ (withEngine (.commit .bufA 511)).store.engine = .commit .bufA 511 ∧ (withEngine (.commit .bufA 511)).canReport :=
  ⟨witness_canAnswer, by decide, rfl, by unfold State.canAnswer; decide, rfl, by unfold State.canReport; decide⟩

theorem witness_CommitCompletionCopiesTheBuffer :
    (withEngine (.commit .bufA 511)).store.engine = .commit .bufA 511
      ∧ (withEngine (.commit .bufA 511)).store.text.wf = true ∧ (withEngine (.commit .bufA 511)).canReport :=
  ⟨rfl, rfl, by unfold State.canReport; decide⟩

/-- The part with page 0 VALID and segment 5 defined on it. -/
def scripted : State :=
  { live with store := (live.store.setPage 0 .valid).setSegment 5 (some { first := 0, count := 1 }) }

theorem witness_CompareFindsTheFirstDifference :
    scripted.canAnswer ∧ (0 : Byte).toNat + 256 * (0 : Byte).toNat ≤ 511
      ∧ scripted.store.page ((0 : Byte).toNat + 256 * (0 : Byte).toNat) = .valid ∧ scripted.store.engine = .idle
      ∧ (withEngine (.compare .bufA 0)).store.engine = .compare .bufA 0 ∧ (withEngine (.compare .bufA 0)).canReport :=
  ⟨by unfold State.canAnswer; decide, by decide, by decide +kernel, rfl, rfl, by unfold State.canReport; decide⟩

theorem witness_SegmentTableRequests :
    live.canAnswer ∧ (withEngine (.prepare 63 .lane0)).canAnswer := ⟨witness_canAnswer, by unfold State.canAnswer; decide⟩

theorem witness_PrepareFillsTheDeck_accepts :
    scripted.canAnswer ∧ (5 : Byte).toNat ≤ 63 ∧ scripted.store.segment (5 : Byte).toNat = some { first := 0, count := 1 }
      ∧ (∀ i, i < 1 → scripted.store.page (0 + i) = .valid) ∧ (∀ h, (scripted.lane .lane0).deck.state ≠ .playing h)
      ∧ scripted.store.engine = .idle :=
  ⟨by unfold State.canAnswer; decide, by decide, by decide +kernel, by decide +kernel, fun h x => (nomatch x), rfl⟩

/-- `scripted` with this text on page 0 and a PREPARE of segment 5 for lane 0 in flight. -/
def preparing (text : Text) : State :=
  { scripted with store := { scripted.store with text := Memory.writeRun [] 0 text, engine := .prepare 5 .lane0 } }

/-- A word, a run of spaces, a speaker change above the style limit, a word with a 0x1E that begins no code, and a break. -/
def items : List ScriptItem :=
  [.word (txt ['a']), .space, .space, .speaker 15, .word [0x41, 0x1E, 0x61], .brk]

theorem witness_PrepareFillsTheDeck_completes :
    let s := preparing (items.flatMap ScriptItem.chars)
    s.store.engine = .prepare 5 .lane0 ∧ s.store.segment 5 = some { first := 0, count := 1 }
      ∧ s.store.textOfSegment { first := 0, count := 1 } = items.flatMap ScriptItem.chars
      ∧ (∀ x ∈ items, x.proper = true) ∧ wordsApart items = true ∧ s.styleLimit ≤ 16
      ∧ (s.lane .lane0).deck.pendingTake = none
      ∧ s.reports.length + (s.layingOf .lane0 5 items).limited.length ≤ 30 :=
  ⟨rfl, by decide, by decide, by decide, by decide, by decide, rfl, by decide⟩

/-- R141, R158: the layout of that text: two units, the second in the style that the limit leaves, and one index reported. -/
theorem test_script_layout :
    let y := (preparing []).layingOf .lane0 5 items
    (y.closed.map fun u => (u.lines, u.closeCause), y.limited)
      = ([([txt ['a']], some .speaker), ([txt ['A', '?', 'a']], some .brk)], [15]) := by decide

/-- R158: a word of 25 characters is laid as two pieces, the second attached. -/
theorem test_script_pieces :
    (scriptPieces (List.replicate 25 0x41)).map (fun w => (w.text.length, w.attach)) = [(24, false), (1, true)] := by decide

/-- R158, R159: of 49 units the deck keeps 48, and DECK_TRUNCATED says 1. -/
theorem test_deck_truncated :
    let s := preparing ((List.replicate 49 [0x41, 0x0A]).flatten)
    (after .prepareCompletion
        { s with store := s.store.setSegment 5 (some { first := 0, count := 2 }) }).map
        (fun t => ((t.lane .lane0).deck.units.length, t.reports.map Report.value))
      = some (48, [some 50331653, some 1]) := by decide +kernel

/-! ## Witnesses: cues -/

theorem witness_addresses_lane0 : live.onlyAddresses 1 .lane0 := ⟨by decide, fun m => by cases m <;> decide⟩
theorem witness_addresses_lane1 : live.onlyAddresses 0xFE .lane1 := ⟨by decide, fun m => by cases m <;> decide⟩

theorem witness_withLane0 (f : Lane → Lane) (h : (f (live.lane .lane0)).params = (live.lane .lane0).params) :
    (withLane0 f).onlyAddresses 1 .lane0 := by
  refine ⟨by decide, fun m => ?_⟩
  cases m
  · show 1 &&& BitVec.ofNat 8 (f (live.lane .lane0)).params.group ≠ 0 ↔ _
    rw [h]; decide
  · show 1 &&& BitVec.ofNat 8 (live.lane .lane1).params.group ≠ 0 ↔ _
    decide

theorem witness_FreezeAndHold : (false = true ∨ live.canAnswer) ∧ (true = true ∨ live.canAnswer) :=
  ⟨.inr witness_canAnswer, .inl rfl⟩

/-- A next image ready on lane 0, with these flags. -/
def waiting (frozen held : Bool) (base : Nat) : State :=
  withLane0 fun ln => { ln with
    frozen := frozen, held := held
    display := { ln.display with
      nextReady := true
      next := composedImage ln.params (Image.blank none) (timed 1 base 6990 40) }
    engine := { ln.engine with record := some ⟨6990, 40, 1⟩ } }

/-- `waiting` with three units queued behind the next image, the last of them stale at 7,000. -/
def backlog (frozen held : Bool) : State :=
  (waiting frozen held 6900).setLane .lane0 { (waiting frozen held 6900).lane .lane0 with engine :=
    { queue := [timed 2 6500 6995 30, timed 3 6900 7100 20, timed 4 6499 7130 20], record := some ⟨7130, 20, 4⟩
      level := .level0, nextRef := 5 } }

theorem witness_backlog (frozen held : Bool) :
    (backlog frozen held).onlyAddresses 1 .lane0 ∧ ((backlog frozen held).lane .lane0).state = .running
      ∧ (true = true ∨ (backlog frozen held).canAnswer) ∧ ((backlog frozen held).lane .lane0).feedsNothing
      ∧ (backlog frozen held).canReport ∧ ((backlog frozen held).lane .lane0).frozen = frozen
      ∧ ((backlog frozen held).lane .lane0).held = held ∧ ((backlog frozen held).lane .lane0).display.nextReady = true :=
  ⟨⟨by decide, fun m => by cases frozen <;> cases held <;> cases m <;> decide⟩, rfl, .inl rfl, fun g h => (nomatch h), Nat.succ_pos 31, rfl, rfl, rfl⟩

theorem witness_ThawAndResumeRetime :
    ((backlog true false).lane .lane0).frozen = true ∧ ((backlog true false).lane .lane0).held = false
      ∧ ((backlog false true).lane .lane0).held = true ∧ ((backlog true true).lane .lane0).frozen = true
      ∧ ((backlog true true).lane .lane0).held = true ∧ (live.lane .lane0).frozen = false ∧ (live.lane .lane0).held = false :=
  ⟨rfl, rfl, rfl, rfl, rfl, rfl, rfl⟩

/-- R127: the walk at 7,000 by hand: 6,990 to 7,000; 6,995 behind 7,000 + 40 to 7,040; 7,100 stays; one unit is stale. -/
theorem test_survivors :
    ((((backlog true false).lane .lane0).survivors 7000).map fun t => (t.ref, t.release))
        = [(1, 7000), (2, 7040), (3, 7100)]
      ∧ ((backlog true false).lane .lane0).discarded 7000 = 1 := by decide

theorem witness_StepReleasesOne :
    ((backlog false true).lane .lane0).held = true ∧ ((backlog false true).lane .lane0).frozen = false
      ∧ ((backlog false true).lane .lane0).display.nextReady = true
      ∧ ((backlog false true).lane .lane0).engine.queue.length = 3 := ⟨rfl, rfl, rfl, rfl⟩

theorem witness_ClearEmptiesTheLane :
    opened.onlyAddresses 1 .lane0 ∧ (opened.lane .lane0).state = .running ∧ (true = true ∨ opened.canAnswer)
      ∧ (opened.lane .lane0).deck.state = .empty ∧ (opened.lane .lane0).deck.pendingTake = none :=
  ⟨witness_withLane0 _ rfl, rfl, .inl rfl, rfl, rfl⟩

theorem witness_JoinAndSplit :
    (false = true ∨ live.canAnswer) ∧ live.onlyAddresses 2 .lane1 ∧ (live.lane .lane1).deck.state = .empty
      ∧ (live.lane .lane1).deck.pendingTake = none ∧ live.onlyAddresses 1 .lane0 :=
  ⟨.inr witness_canAnswer, ⟨by decide, fun m => by cases m <;> decide⟩, rfl, rfl, witness_addresses_lane0⟩

/-- A deck unit of segment 12. -/
def deckUnit : CaptionUnit := { unitOf 20 0 with origin := .script 12, onset := none, firstArrival := none, closeFrame := none }

/-- Lane 0 FROZEN with a deck of two units in this state. -/
def decked (state : DeckState) (pacing : Option Pacing) (take : Option PendingTake) : State :=
  withLane0 fun ln => { ln with
    frozen := true
    deck := { state := state, units := [deckUnit, deckUnit], nextIndex := none, pacing := pacing, onsets := []
              pendingTake := take } }

/-- What every clause about a cue asks of a state of lane 0's deck. -/
theorem witness_TakeAndAdvance (state : DeckState) (pacing : Option Pacing) (take : Option PendingTake) :
    (decked state pacing take).onlyAddresses 1 .lane0 ∧ ((decked state pacing take).lane .lane0).state = .running
      ∧ (decked state pacing take).canAnswer ∧ (decked state pacing take).canReport ∧ (12 : Byte).toNat ≤ 63
      ∧ (LaneId.lane0 = .lane1 → (decked state pacing take).following = false)
      ∧ ((decked state pacing take).lane .lane0).noLiveText :=
  ⟨witness_withLane0 _ rfl, rfl, Nat.succ_pos 3, Nat.succ_pos 31, by decide, fun h => (nomatch h), ⟨rfl, rfl⟩⟩

theorem witness_TakeAndAdvance_stepped :
    ((decked (.ready 12) none none).lane .lane0).deck.state = .ready (12 : Byte).toNat
      ∧ (∀ u ∈ ((decked (.ready 12) none none).lane .lane0).deck.units, u.origin = .script (12 : Byte).toNat)
      ∧ ((decked (.ready 12) none none).lane .lane0).params.pacing = .stepped
      ∧ ((decked (.ready 12) none none).lane .lane0).deck.units = deckUnit :: [deckUnit]
      ∧ (decked (.ready 12) none none).fitsBehind .lane0 (decked (.ready 12) none none).time.sfc :=
  ⟨rfl, by decide, rfl, rfl, by decide, fun _ h => (nomatch h)⟩

/-- `decked` under AUTO pacing with D at A, and this many units. -/
def paced (state : DeckState) (n : Nat) : State :=
  let s := decked state none none
  s.setLane .lane0 { s.lane .lane0 with
    params := { (s.lane .lane0).params with pacing := .auto, delay := 5 }
    deck := { (s.lane .lane0).deck with units := List.replicate n deckUnit } }

theorem witness_TakeAndAdvance_auto :
    ((paced (.ready 12) 33).lane .lane0).deck.state = .ready (12 : Byte).toNat
      ∧ (∀ u ∈ ((paced (.ready 12) 33).lane .lane0).deck.units, u.origin = .script (12 : Byte).toNat)
      ∧ ((paced (.ready 12) 33).lane .lane0).params.pacing = .auto ∧ ((paced (.ready 12) 33).lane .lane0).params.inRange
      ∧ ((paced (.ready 12) 33).lane .lane0).params.lead ≤ ((paced (.ready 12) 33).lane .lane0).params.delay
      ∧ ((paced (.ready 12) 33).lane .lane0).engine.queue = [] ∧ ((paced (.ready 12) 33).lane .lane0).engine.record = none
      ∧ ((paced (.ready 12) 33).lane .lane0).frozen = true ∧ ((paced (.ready 12) 33).lane .lane0).noLiveText :=
  ⟨rfl, by decide, rfl, witness_params_auto _ 5 (by decide), by decide, rfl, rfl, rfl, ⟨rfl, rfl⟩⟩

/-- R166, R167: at the take 32 of 33 units move, and the deck goes on; of 32 units all move, and the segment ends. -/
theorem test_auto_take :
    ((after (.takeCue true (immediateCue 1 7 12 0 0 0)) (paced (.ready 12) 33)).map fun t =>
        ((t.lane .lane0).engine.queue.length, (t.lane .lane0).deck.nextIndex, (t.lane .lane0).source, t.reports.length))
      = some (32, some 32, .script, 0)
    ∧ ((after (.takeCue true (immediateCue 1 7 12 0 0 0)) (paced (.ready 12) 32)).map fun t =>
        ((t.lane .lane0).engine.queue.length, (t.lane .lane0).deck.nextIndex, (t.lane .lane0).source, t.reports.length))
      = some (32, none, .live, 1) := by decide

theorem witness_TakeAndAdvance_recorded :
    ((decked (.preparing 12) none none).lane .lane0).deck.state = .preparing (12 : Byte).toNat
      ∧ ((decked (.preparing 12) none none).lane .lane0).deck.pendingTake = none := ⟨rfl, rfl⟩

theorem witness_TakeAndAdvance_following :
    let s := { live with following := true }
    s.onlyAddresses 2 .lane1 ∧ (s.lane .lane1).state = .running ∧ s.canAnswer ∧ s.canReport ∧ s.following = true :=
  ⟨⟨by decide, fun m => by cases m <;> decide⟩, rfl, by unfold State.canAnswer; decide, by unfold State.canReport; decide,
    rfl⟩

theorem witness_TakeAndAdvance_refused :
    ((decked (.preparing 12) none (some ⟨6990, 21⟩)).lane .lane0).deck.state ≠ .ready (12 : Byte).toNat
      ∧ ((decked (.preparing 12) none (some ⟨6990, 21⟩)).lane .lane0).deck.pendingTake ≠ none
      ∧ ∀ g, ((decked (.preparing 12) none (some ⟨6990, 21⟩)).lane .lane0).deck.state = .playing g →
        ((decked (.preparing 12) none (some ⟨6990, 21⟩)).lane .lane0).deck.pacing ≠ some .stepped :=
  ⟨fun h => (nomatch h), fun h => (nomatch h), fun _ h => (nomatch h)⟩

theorem witness_TakeAndAdvance_advance :
    ((decked (.playing 12) (some .stepped) none).lane .lane0).frozen = true
      ∧ ((decked (.playing 12) (some .stepped) none).lane .lane0).deck.state = .playing 12
      ∧ ((decked (.playing 12) (some .stepped) none).lane .lane0).deck.pacing = some .stepped
      ∧ ((decked (.playing 12) (some .stepped) none).lane .lane0).deck.units = deckUnit :: [deckUnit]
      ∧ deckUnit.origin = .script 12
      ∧ (decked (.playing 12) (some .stepped) none).fitsBehind .lane0 (decked (.playing 12) (some .stepped) none).time.sfc :=
  ⟨rfl, rfl, rfl, rfl, rfl, by decide, fun _ h => (nomatch h)⟩

/-- Lane 0 HELD with a next image, a full queue and the last unit of an AUTO deck. -/
def fed : State :=
  withLane0 fun ln => { ln with
    held := true
    display := { ln.display with nextReady := true, next := composedImage ln.params (Image.blank none) (timed 1 6900 6900 40) }
    engine :=
      { queue := List.replicate 32 (timed 2 6950 6950 40), record := some ⟨6950, 40, 2⟩, level := .level0, nextRef := 3 }
    deck := { state := .playing 12, units := [deckUnit], nextIndex := some 40, pacing := some .auto, onsets := [6960]
              pendingTake := none } }

theorem witness_TakeAndAdvance_fed :
    fed.onlyAddresses 1 .lane0 ∧ (fed.lane .lane0).state = .running ∧ fed.canAnswer ∧ fed.canReport
      ∧ (fed.lane .lane0).held = true ∧ (fed.lane .lane0).frozen = false ∧ (fed.lane .lane0).display.nextReady = true
      ∧ (fed.lane .lane0).engine.queue.length = 32 ∧ (fed.lane .lane0).deck.state = .playing 12
      ∧ (fed.lane .lane0).deck.pacing = some .auto ∧ (fed.lane .lane0).deck.units = deckUnit :: []
      ∧ (fed.lane .lane0).deck.onsets = 6960 :: [] ∧ deckUnit.origin = .script 12
      ∧ ∀ x, (fed.lane .lane0).engine.record = some x → (x.release : Int) + x.minimum
        ≤ max (((6960 : Nat) : Int) + (fed.lane .lane0).params.delay - (fed.lane .lane0).params.lead) fed.time.sfc
          + (fed.lane .lane0).params.lamMax :=
  ⟨witness_withLane0 _ rfl, rfl, by unfold State.canAnswer; decide, by unfold State.canReport; decide, rfl, rfl, rfl,
    by decide, rfl, rfl, rfl, rfl, rfl, fun x h => by cases h; decide⟩

/-- A PREPARE in flight for lane 0, FROZEN, with a take recorded at 6,990 under this pacing. -/
def taken (pacing : Pacing) : State :=
  let s := preparing (txt ['a'])
  s.setLane .lane0 { s.lane .lane0 with
    frozen := true
    params := { (s.lane .lane0).params with pacing := pacing, delay := 15 }
    deck := bareDeck (.preparing 5) (some ⟨6990, 21⟩) }

theorem witness_TakeAndAdvance_completion (pacing : Pacing) :
    (taken pacing).store.engine = .prepare 5 .lane0 ∧ ((taken pacing).lane .lane0).frozen = true
      ∧ ((taken pacing).lane .lane0).deck.pendingTake = some ⟨6990, 21⟩
      ∧ ((taken pacing).lane .lane0).params.pacing = pacing ∧ (taken pacing).fitsBehind .lane0 6990
      ∧ ((taken pacing).lane .lane0).params.inRange
      ∧ (taken pacing).time.sfc + ((taken pacing).lane .lane0).params.lead
        ≤ 6990 + ((taken pacing).lane .lane0).params.delay
      ∧ ((taken pacing).lane .lane0).engine.queue = [] ∧ ((taken pacing).lane .lane0).engine.record = none :=
  ⟨rfl, rfl, rfl, rfl, ⟨Nat.succ_pos 31, fun _ h => (nomatch h)⟩, witness_params_auto _ 15 (by decide), by cases pacing <;> decide,
    rfl, rfl⟩

theorem witness_TakeAndAdvance_completed (pacing : Pacing) :
    (after .prepareCompletion ((taken pacing).setLane .lane0 { (taken pacing).lane .lane0 with
        deck := { ((taken pacing).lane .lane0).deck with pendingTake := none } })).map
        (fun t => (t.reports.length, (t.lane .lane0).state, (t.lane .lane0).frozen, (t.lane .lane0).builder.openUnit,
          (t.lane .lane0).builder.provisional.length, (t.lane .lane0).deck.units.length))
      = some (1, .running, true, none, 0, 1) := by cases pacing <;> decide

theorem witness_EndActsOnTheDeck :
    let s := decked (.preparing 12) none (some ⟨6990, 21⟩)
    s.onlyAddresses 1 .lane0 ∧ (s.lane .lane0).state = .running ∧ (true = true ∨ s.canAnswer) ∧ s.canReport
      ∧ (s.lane .lane0).deck.state = .preparing 12 ∧ (s.lane .lane0).deck.pendingTake = some ⟨6990, 21⟩ :=
  ⟨witness_withLane0 _ rfl, rfl, .inl rfl, by unfold State.canReport; decide, rfl,
    rfl⟩

/-- What every clause about an arriving cue asks, with a full schedule. -/
def scheduled : State :=
  { live with schedule := List.replicate 32 { cue := { kind := .hold, mask := 1, tag := 7, segment := 0 }, target := 7001 } }

theorem witness_ScheduledCues :
    (9, CueKind.take, Instr.takeCue) ∈ cueTable ∧ scheduled.canAnswer ∧ scheduled.canReport
      ∧ (63 : Byte).toNat ≤ 63 ∧ 63 < (64 : Byte).toNat ∧ 32 ≤ scheduled.schedule.length ∧ live.schedule.length < 32 :=
  ⟨by simp [cueTable], by unfold State.canAnswer; decide, by unfold State.canReport; decide, by decide, by decide, by decide,
    by decide⟩

/-- R13 at F = 25 and FOD 7,000: targets at hand, one frame and half a day ahead, and the frame after that, which is late. -/
theorem witness_ScheduledCues_targets :
    live.time.ahead (targetOf 0x58 0x1B 0) = 0 ∧ live.time.ahead (targetOf 0x59 0x1B 0) = 1
      ∧ live.time.ahead (targetOf 0x18 0x96 0x10) = live.time.rate.day / 2
      ∧ live.time.ahead (targetOf 0x19 0x96 0x10) = live.time.rate.day / 2 + 1
      ∧ targetOf 0x7F 0xF5 0x20 < live.time.rate.day ∧ live.time.rate.day = targetOf 0x80 0xF5 0x20 := by decide

theorem witness_ScheduledCues_refused :
    1 < (2 : Byte).toNat ∧ ((1 : Byte) = 1 ∧ live.time.rate.day ≤ targetOf 0x80 0xF5 0x20)
      ∧ ([1, 2, 3, 0, 4, 5] : List Byte).length ≠ 7 ∧ live.canReport ∧ ((0 : Byte) = 0 ∨ 11 < (0 : Byte).toNat)
      ∧ 11 < (12 : Byte).toNat :=
  ⟨by decide, by decide, by decide, witness_canReport, .inl rfl, by decide⟩

theorem witness_ScheduledCues_none_due :
    ∀ e ∈ scheduled.schedule.head?, scheduled.time.sfc < e.target := by decide

theorem witness_ScheduledCues_due :
    let x : ScheduledCue := { cue := { kind := .take, mask := 1, tag := 7, segment := 63 }, target := 7000 }
    let s := { live with schedule := x :: scheduled.schedule }
    (9, CueKind.take, Instr.takeCue) ∈ cueTable ∧ s.schedule = x :: scheduled.schedule ∧ x.target ≤ s.time.sfc
      ∧ x.cue = { kind := .take, mask := x.cue.mask, tag := (7 : Byte).toNat, segment := (63 : Byte).toNat }
      ∧ (63 : Byte).toNat ≤ 63 :=
  ⟨by simp [cueTable], rfl, by decide, rfl, by decide⟩

/-- Both lanes HELD with units waiting, a deck READY with a take recorded on lane 0 and one PREPARING on lane 1, room for the
five reports and no more, and the timer at its end. -/
def steered : State :=
  let s := backlog false true
  let s := s.setLane .lane1 { s.lane .lane0 with deck := bareDeck (.preparing 4) (some ⟨6990, 22⟩) }
  { s.setLane .lane0 { s.lane .lane0 with deck := { bareDeck (.ready 12) (some ⟨6980, 21⟩) with units := [deckUnit] } } with
    reports := List.replicate 27 (live.note .engineReset none none none), supervisionExpiry := some 7000 }

theorem witness_AutomationWithdraws :
    steered.reports.length ≤ 27 ∧ steered.canAnswer ∧ steered.supervisionExpiry = some 7000 ∧ 7000 ≤ steered.time.sfc
      ∧ live.supervisionExpiry = none :=
  ⟨by decide, Nat.succ_pos 3, rfl, by decide, rfl⟩

/-- R136: the reports of that withdraw in their order, with the lanes and the values. -/
theorem test_withdraw_reports :
    (steered.withdrawReports 0).map (fun r => (r.kind, r.lane, r.value))
      = [(.unitsStale, some .lane0, some 1), (.unitsStale, some .lane1, some 1), (.takeAbandoned, some .lane0, some 21),
        (.takeAbandoned, some .lane1, some 22), (.automationWithdraw, none, some 0)] := by decide

/-! ## Witnesses: the report unit and the inserters -/

/-- For QueryIsAnswered nothing is asked; for PollReturnsTheOldest, ClearCountersZeroes and EngineResetValues
only this. -/
theorem witness_PollReturnsTheOldest : live.canAnswer := witness_canAnswer
theorem witness_StatusChangesNothing : live.canAnswer ∧ 4 < (5 : Byte).toNat ∧ 1 < (2 : Byte).toNat + 256 * (0 : Byte).toNat :=
  ⟨witness_canAnswer, by decide, by decide⟩
theorem witness_ClearCountersZeroes : live.canAnswer := witness_canAnswer
theorem witness_EngineResetValues : live.canAnswer := witness_canAnswer

/-- A COMMIT in flight holds the one lock that there is. -/
theorem witness_EngineResetValues_committing :
    let s := { live with store := { live.store with
      engine := .commit .bufA 511, bufferA := { chars := [], locked := true } } }
    s.canAnswer ∧ s.store.engine = .commit .bufA 511 ∧ 511 < 512
      ∧ ∀ b, (s.store.buffer b).locked = true → ∃ p, s.store.engine = .commit b p :=
  ⟨by unfold State.canAnswer; decide, rfl, by decide, fun b => by
    cases b
    · exact fun _ => ⟨511, rfl⟩
    · exact fun h => (nomatch h)⟩

/-- The next image of the backlog is due, with units behind it. -/
theorem witness_InserterRequestIsServed :
    let s := backlog false false
    (s.lane .lane0).state = .running ∧ (LaneId.lane0 = .lane1 → s.following = false) ∧ (s.lane .lane0).params.align = false
      ∧ (s.link (.inserter .lane0)).waiting.length < 2 ∧ (s.lane .lane0).frozen = false ∧ (s.lane .lane0).held = false
      ∧ (s.lane .lane0).display.nextReady = true ∧ (s.lane .lane0).display.next.release = some 6990 ∧ 6990 ≤ s.time.sfc
      ∧ (s.lane .lane0).engine.queue.length = 3 ∧ (s.lane .lane0).feedsNothing :=
  ⟨rfl, fun h => (nomatch h), rfl, by decide, rfl, rfl, rfl, rfl, by decide, rfl, fun g h => (nomatch h)⟩

theorem witness_InserterRequestIsServed_held_back :
    let s := live.setLink (.inserter .lane0)
      { live.link (.inserter .lane0) with waiting := List.replicate 2 (unchangedFrame .lane0 1 0) }
    2 ≤ (s.link (.inserter .lane0)).waiting.length := by decide

/-- A request that neither releases nor blanks: on a FROZEN lane, and on a HELD lane with nothing on air. -/
theorem witness_InserterRequestIsServed_still :
    ((backlog true false).lane .lane0).frozen = true ∧ ((backlog false true).lane .lane0).held = true
      ∧ ((backlog false true).lane .lane0).display.air.rows = []
      ∧ ((backlog false true).lane .lane0).display.air.serial = some ((backlog false true).lane .lane0).display.serial :=
  ⟨rfl, rfl, rfl, rfl⟩

theorem witness_InserterRequestIsServed_unchanged :
    let s := withLane0 fun ln => { ln with display := { ln.display with changed := false } }
    (s.lane .lane0).state = .running ∧ (s.lane .lane0).params.align = false
      ∧ (s.link (.inserter .lane0)).waiting.length < 2 ∧ (s.lane .lane0).display.nextReady = false
      ∧ (s.lane .lane0).display.air.rows = [] ∧ (s.lane .lane0).display.changed = false
      ∧ (s.lane .lane0).params.reply = .changeOnly
      ∧ (s.lane .lane0).display.air.serial = some (s.lane .lane0).display.serial :=
  ⟨rfl, rfl, by decide, rfl, rfl, rfl, rfl, rfl⟩

/-- Lane 0 with an image on air since 6,750, in ROLL mode with a next image that is not due. -/
def stale : State :=
  withLane0 fun ln => { ln with
    params := { ln.params with mode := .roll }
    display := { ln.display with
      air := { ln.display.air with rows := [none, some { text := txt ['a'], style := StyleEntry.plain.style }] }
      onAir := 6750, nextReady := true
      next := { composedImage ln.params (Image.blank none) (timed 1 7001 7001 40) with
        rows := [some { text := txt ['a'], style := StyleEntry.plain.style }, none] } } }

theorem witness_InserterRequestIsServed_blank :
    (stale.lane .lane0).state = .running ∧ (stale.lane .lane0).params.align = false
      ∧ (stale.link (.inserter .lane0)).waiting.length < 2 ∧ (stale.lane .lane0).frozen = false
      ∧ (stale.lane .lane0).display.air.rows ≠ []
      ∧ (stale.lane .lane0).display.onAir + (stale.lane .lane0).params.hClear ≤ stale.time.sfc
      ∧ ∃ r, (stale.lane .lane0).display.next.release = some r ∧ stale.time.sfc < r :=
  ⟨rfl, rfl, by decide, rfl, by decide, by decide, 7001, rfl, by decide⟩

/-- The same image one frame inside Hclear, and the same next image one frame before its release. -/
theorem witness_InserterRequestIsServed_standing :
    let s := stale.setLane .lane0 { stale.lane .lane0 with display := { (stale.lane .lane0).display with onAir := 6751 } }
    (s.lane .lane0).frozen = false ∧ (s.lane .lane0).display.next.release = some 7001 ∧ s.time.sfc < 7001
      ∧ (s.lane .lane0).display.air.rows ≠ []
      ∧ s.time.sfc < (s.lane .lane0).display.onAir + (s.lane .lane0).params.hClear
      ∧ (s.lane .lane0).display.air.serial = some (s.lane .lane0).display.serial :=
  ⟨rfl, rfl, by decide, by decide, by decide, rfl⟩

theorem witness_InserterRequestIsServed_stopped :
    (part.link (.inserter .lane0)).waiting.length < 2 ∧ (part.lane .lane0).params.align = false
      ∧ (part.lane .lane0).state = .stopped ∧ (LaneId.lane0 = .lane1 → part.following = false)
      ∧ (part.lane .lane0).display.air.serial = some (part.lane .lane0).display.serial :=
  ⟨by decide, rfl, rfl, fun h => (nomatch h), rfl⟩

theorem witness_InserterRequestIsServed_following :
    let s := { live with following := true }
    (s.link (.inserter .lane1)).waiting.length < 2 ∧ (s.lane .lane1).params.align = false ∧ LaneId.lane1 = .lane1
      ∧ s.following = true ∧ (s.lane .lane0).display.air.serial = some (s.lane .lane0).display.serial :=
  ⟨by decide, rfl, rfl, rfl, rfl⟩

theorem witness_InserterRequestIsServed_aligned :
    let s := withLane0 fun ln => { ln with params := { ln.params with align := true } }
    (s.link (.inserter .lane0)).waiting.length < 2 ∧ (s.lane .lane0).params.align = true ∧ s.canReport :=
  ⟨by decide, rfl, by unfold State.canReport; decide⟩

/-- R111: at FOD 7,000 and D 0 a word 2 frames away is a match and a word 3 frames away a miss. -/
theorem test_word_matches :
    live.wordMatches .lane0 (some 6998) = true ∧ live.wordMatches .lane0 (some 7003) = false
      ∧ live.wordMatches .lane0 none = false := by decide

/-- R112: the third miss in a run raises ALIGN_FAULT, and the third match clears it. -/
theorem test_alignment_runs :
    let d : DisplaySet := { displayReset 0 with missRun := 2 }
    ((d.evaluated false).alignFault, (d.evaluated false).missRun) = (true, 3)
      ∧ (({ d with alignFault := true, matchRun := 2 }).evaluated true).alignFault = false := by decide

theorem witness_InserterFramesRefused : (0x60 : Byte) ≠ 0x60 ∨ ([1, 2, 3] : List Byte).length ≠ 4 := by decide

end Sys2Proof.Tests
end

section
/-! PROOF. The time base: the lock machine's verdicts by its state, pulses by their source, and the statements of
chapter 1 (O17, O18, O19, O20). -/

namespace Sys2Proof.Machine

/-! ## Frame events and the lock machine -/

/-- R1, R2: below the count's limit a frame event raises SFC by one. -/
theorem TimeBase.advance_of_below (t : TimeBase) (h : t.sfc + 1 < 2 ^ 48) :
    t.advance = { t with sfc := t.sfc + 1, fod := (t.fod + 1) % t.rate.day } := by
  have room : t.sfc + 1 < Config.sfcSpan := h
  simp only [TimeBase.advance, nextSfc, nextFod, if_pos room]

@[simp] theorem TimeBase.advance_rate (t : TimeBase) : t.advance.rate = t.rate := rfl

/-- R8: in SEARCH the frame's word, valid or not, becomes the candidate. -/
theorem TimeBase.evaluate_of_search (t : TimeBase) (word : Option Nat) (h : t.lock = .search) :
    t.evaluate word = ({ t with lock := if word.isSome then .verify else .search, candidate := word }, []) := by
  obtain ⟨sfc, fod, rate, source, supervision, generator, window, lock, candidate, misses⟩ := t
  cases h
  cases word <;> rfl

/-- R9: in VERIFY a word that follows the candidate gains the lock. -/
theorem TimeBase.evaluate_of_confirmed (t : TimeBase) (c : Nat) (h : t.lock = .verify) (hc : t.candidate = some c) :
    t.evaluate (some ((c + 1) % t.rate.day))
      = ({ t with fod := (c + 1) % t.rate.day, misses := 0, candidate := none, lock := .locked },
          [t.reportOf .lockGained (some (((c + 1) % t.rate.day + t.rate.day - t.fod) % t.rate.day))]) := by
  simp [TimeBase.evaluate, h, hc]

/-- R9: in VERIFY any other word replaces the candidate. -/
theorem TimeBase.evaluate_of_replaced (t : TimeBase) (c w : Nat) (h : t.lock = .verify) (hc : t.candidate = some c)
    (hw : w ≠ (c + 1) % t.rate.day) : t.evaluate (some w) = ({ t with candidate := some w }, []) := by
  simp [TimeBase.evaluate, h, hc, Ne.symm hw]

/-- R9: in VERIFY an absent or invalid word ends the verification. -/
theorem TimeBase.evaluate_of_verify_none (t : TimeBase) (h : t.lock = .verify) :
    t.evaluate none = ({ t with candidate := none, lock := .search }, []) := by
  simp [TimeBase.evaluate, h]

/-- R10: in LOCKED the predicted FOD clears the misses; anything else is a miss, and the third in a run loses the
lock. -/
theorem TimeBase.evaluate_of_locked (t : TimeBase) (word : Option Nat) (h : t.lock = .locked) :
    t.evaluate word
      = if word = some t.fod then ({ t with misses := 0 }, [])
        else if t.misses < 2 then ({ t with misses := t.misses + 1 }, [])
        else ({ t with lock := .search, misses := 0 }, [t.reportOf .lockLost (some t.fod)]) := by
  have third : t.misses + 1 < 3 ↔ t.misses < 2 := by omega
  by_cases hw : word = some t.fod <;> by_cases hm : t.misses < 2 <;>
    simp [TimeBase.evaluate, TimeBase.miss, h, hw, hm, third]

/-- R8 to R10: what an absent word does at a frame event: the lock machine's own three fields change, as the state of
the lock says, and only a third miss is reported. -/
theorem TimeBase.evaluate_none (t : TimeBase) :
    (t.evaluate none).1 = { t with
      lock := (t.evaluate none).1.lock, candidate := (t.evaluate none).1.candidate
      misses := (t.evaluate none).1.misses }
    ∧ t.unconfirmed (t.evaluate none).1
    ∧ (¬ (t.lock = .locked ∧ 2 ≤ t.misses) → (t.evaluate none).2 = []) := by
  cases h : t.lock with
  | search => simp [t.evaluate_of_search none h, TimeBase.unconfirmed, h]
  | verify => simp [t.evaluate_of_verify_none h, TimeBase.unconfirmed, h]
  | locked =>
    rw [t.evaluate_of_locked none h]
    by_cases hm : t.misses < 2 <;> simp [TimeBase.unconfirmed, h, hm]

/-! ## Pulses -/

/-- R4: a pulse from REFERENCE is a frame event and restarts supervision. -/
theorem TimeBase.pulse_of_reference (t : TimeBase) (tc : Option TimecodeWord) (h : t.source = .reference) :
    t.pulse tc = ({ (t.advance.evaluate (t.wordValue tc)).1 with supervision := true },
      (t.advance.evaluate (t.wordValue tc)).2) := by
  simp [TimeBase.pulse, TimeBase.frameEvent, h]

/-- R6, R11: a pulse inside the same-frame window makes no frame event. -/
theorem TimeBase.pulse_of_window (t : TimeBase) (tc : Option TimecodeWord) (h : t.source = .internal)
    (hw : t.window = true) :
    t.pulse tc = ({ t.evaluateSameFrame (t.wordValue tc) with
        source := .reference, generator := false, supervision := true, window := false },
      [t.reportOf .pulseRestored none]) := by
  simp [TimeBase.pulse, h, hw]

/-- R6: a pulse from INTERNAL that finds the window closed makes a frame event of its own. -/
theorem TimeBase.pulse_of_internal (t : TimeBase) (tc : Option TimecodeWord) (h : t.source = .internal)
    (hw : t.window = false) :
    t.pulse tc = ({ (t.advance.evaluate (t.wordValue tc)).1 with
        source := .reference, generator := false, supervision := true },
      (t.advance.evaluate (t.wordValue tc)).1.reportOf .pulseRestored none
        :: (t.advance.evaluate (t.wordValue tc)).2) := by
  simp [TimeBase.pulse, TimeBase.frameEvent, h, hw]

/-! ## The time base and the part -/

/-- A new time base with its reports changes the time base and the report queue alone. -/
theorem State.withTime_eq (s : State) (x : TimeBase × List Report) :
    s.withTime x = { s with
      time := x.1, reports := (s.withTime x).reports, reportOverflow := (s.withTime x).reportOverflow } :=
  State.queueReports_eq ..

/-- A new time base with reports that find room. -/
theorem State.withTime_of_room (s : State) (x : TimeBase × List Report) (h : s.reports.length + x.2.length ≤ 32) :
    s.withTime x = { s with time := x.1, reports := s.reports ++ x.2 } :=
  State.queueReports_of_room { s with time := x.1 } x.2 h

/-- A new time base with one report that finds room. -/
theorem State.withTime_of_one (s : State) (t : TimeBase) (r : Report) (h : s.canReport) :
    s.withTime (t, [r]) = { s with time := t, reports := s.reports ++ [r] } := s.withTime_of_room (t, [r]) h

@[simp] theorem State.withTime_time (s : State) (x : TimeBase × List Report) : (s.withTime x).time = x.1 := by
  simp [State.withTime]

/-- PULSE_ARRIVAL (R4, R6). -/
theorem exec_pulseArrival (s : State) (tc : Option TimecodeWord) :
    exec (.pulseArrival tc) s = .next (s.withTime (s.time.pulse tc)) := rfl

/-- PULSE_SUPERVISION_EXPIRY with the timer running (R4). -/
theorem exec_pulseSupervisionExpiry (s : State) (h : s.time.source = .reference) (k : s.time.supervision = true) :
    exec .pulseSupervisionExpiry s = .next (s.withTime s.time.supervisionExpiry) := by
  simp [exec, execPulseSupervisionExpiry, h, k]

/-- INTERNAL_GENERATOR_EXPIRY with the timer running (R5). -/
theorem exec_internalGeneratorExpiry (s : State) (h : s.time.source = .internal) (k : s.time.generator = true) :
    exec .internalGeneratorExpiry s = .next (s.withTime s.time.generatorExpiry) := by
  simp [exec, execInternalGeneratorExpiry, h, k]

/-- Settles O17: an internal frame event is an advance, the lock machine's verdict on an absent word, and the timers. -/
theorem internalFrameEvents : Obligations.InternalFrameEvents := by
  unfold Obligations.InternalFrameEvents
  intro s below
  obtain ⟨shape, verdict, quiet⟩ := s.time.advance.evaluate_none
  refine ⟨fun internal running => ?_, fun reference running => ?_⟩
  · refine ⟨_, exec_internalGeneratorExpiry s internal running, ?_, ?_, ?_, fun kept => ?_⟩
    · rw [State.withTime_time]
      simp only [TimeBase.generatorExpiry, TimeBase.frameEvent]
      rw [shape, TimeBase.advance_of_below _ below]
      simp [running]
    · rw [State.withTime_time]; exact verdict
    · exact (s.withTime_eq _).trans (by simp)
    · simp [State.withTime, TimeBase.generatorExpiry, TimeBase.frameEvent, quiet kept]
  · refine ⟨_, exec_pulseSupervisionExpiry s reference running, ?_, ?_, ?_, fun kept room => ?_⟩
    · rw [State.withTime_time]
      simp only [TimeBase.supervisionExpiry, TimeBase.frameEvent]
      rw [shape, TimeBase.advance_of_below _ below]
    · rw [State.withTime_time]; exact verdict
    · exact (s.withTime_eq _).trans (by simp)
    · have single : s.time.supervisionExpiry
          = (s.time.supervisionExpiry.1, [s.time.supervisionExpiry.1.reportOf .pulseLost none]) := by
        simp [TimeBase.supervisionExpiry, TimeBase.frameEvent, quiet kept, TimeBase.reportOf]
      rw [single, State.withTime_of_one _ _ _ room]
      exact ⟨rfl, rfl⟩

/-- Settles O18: each verdict of SEARCH and VERIFY, after the advance of the pulse's frame event. -/
theorem verifyJudgesTheWord : Obligations.VerifyJudgesTheWord := by
  unfold Obligations.VerifyJudgesTheWord
  refine ⟨fun s tc reference search below => ?_, fun s tc c reference verify cand below room => ?_⟩
  · rw [exec_pulseArrival, TimeBase.pulse_of_reference _ _ reference, s.time.advance.evaluate_of_search _ search,
      TimeBase.advance_of_below _ below]
    rfl
  · refine ⟨fun w hw => ?_, fun hw => ?_⟩
    · have value : s.time.wordValue tc = some w := hw
      rw [exec_pulseArrival, TimeBase.pulse_of_reference _ _ reference, value]
      split
      · next confirms =>
        subst confirms
        have gained := s.time.advance.evaluate_of_confirmed c verify cand
        rw [TimeBase.advance_rate] at gained
        rw [gained, TimeBase.advance_of_below _ below, State.withTime_of_one _ _ _ room]
        rfl
      · next differs =>
        rw [s.time.advance.evaluate_of_replaced c w verify cand differs, TimeBase.advance_of_below _ below]
        rfl
    · have value : s.time.wordValue tc = none := hw
      rw [exec_pulseArrival, TimeBase.pulse_of_reference _ _ reference, value,
        s.time.advance.evaluate_of_verify_none verify, TimeBase.advance_of_below _ below]
      rfl

/-- Settles O19: the verdict of LOCKED, after the advance of the pulse's frame event. -/
theorem lockedCountsMisses : Obligations.LockedCountsMisses := by
  unfold Obligations.LockedCountsMisses
  intro s tc reference locked below _ room
  rw [exec_pulseArrival, TimeBase.pulse_of_reference _ _ reference, s.time.advance.evaluate_of_locked _ locked,
    TimeBase.advance_of_below _ below]
  simp only [TimeBase.wordValue]
  split
  · rfl
  · split
    · rfl
    · rw [State.withTime_of_one _ _ _ room]; rfl

/-- R11: what a same-frame word does in SEARCH and LOCKED. -/
theorem TimeBase.evaluateSameFrame_eq (t : TimeBase) (word : Option Nat) (h : t.lock = .search ∨ t.lock = .locked) :
    t.evaluateSameFrame word
      = match t.lock, word with
        | .search, some w => { t with lock := .verify, candidate := some w }
        | .locked, some w => { t with misses := if w = t.fod then 0 else t.misses }
        | _, _ => t := by
  obtain ⟨sfc, fod, rate, source, supervision, generator, window, lock, candidate, misses⟩ := t
  obtain rfl | rfl : lock = .search ∨ lock = .locked := h
  · cases word <;> rfl
  · cases word with
    | none => rfl
    | some w => simp only [TimeBase.evaluateSameFrame]; split <;> rfl

/-- Settles O20: the two kinds of pulse from INTERNAL, and the close of the window. -/
theorem sameFrameWindow : Obligations.SameFrameWindow := by
  unfold Obligations.SameFrameWindow
  refine ⟨fun s tc internal opened room lock => ?_, fun s tc internal closed lock below _ room => ?_, fun s => rfl⟩
  · rw [exec_pulseArrival, TimeBase.pulse_of_window _ _ internal opened, TimeBase.evaluateSameFrame_eq _ _ lock,
      State.withTime_of_one _ _ _ room]
    simp only [TimeBase.wordValue]
    obtain h | h := lock <;> cases tc.bind (fun x => timecodeFrames x s.time.rate) <;> simp only [h] <;> rfl
  · rw [exec_pulseArrival, TimeBase.pulse_of_internal _ _ internal closed]
    obtain search | locked := lock
    · rw [s.time.advance.evaluate_of_search _ search, TimeBase.advance_of_below _ below,
        State.withTime_of_room _ _ (by simp; omega)]
      simp only [if_pos search]
      rfl
    · rw [s.time.advance.evaluate_of_locked _ locked, TimeBase.advance_of_below _ below]
      have notSearch : s.time.lock ≠ .search := by simp [locked]
      simp only [notSearch, if_false, TimeBase.wordValue]
      split
      · rw [State.withTime_of_room _ _ (by simp; omega)]; rfl
      · split
        · rw [State.withTime_of_room _ _ (by simp; omega)]; rfl
        · rw [State.withTime_of_room _ _ (by simp; omega)]; rfl

end Sys2Proof.Machine
end

section
/-! PROOF. Requests that set one value (O36) and STATUS (O56): what each handler makes of its fields, and the
answers. -/

namespace Sys2Proof.Machine

/-! ## Answers -/

/-- A request whose handler acknowledges is counted and answered with ACK (R184, R185). -/
theorem requestRow_of_ack (kind : Byte) (p : List Byte) (h : List Byte → State → State × Reply) (s t : State)
    (v : Option Nat) (room : s.canAnswer) (good : requestLengthOk kind p.length = true)
    (acked : h p s.heard = (t, .ack v)) : requestRow kind p h s = t.send .automation (ackOf kind v) := by
  rw [requestRow_of_room kind p h s room good, acked, State.answer, Reply.frame_ack]

/-- A request whose handler refuses is only counted and answered with REFUSED (R184). -/
theorem requestRow_of_refused (kind : Byte) (p : List Byte) (h : List Byte → State → State × Reply) (s : State)
    (r : Reason) (room : s.canAnswer) (good : requestLengthOk kind p.length = true)
    (refused : h p s.heard = (s.heard, .refused r)) :
    requestRow kind p h s = s.answered { kind := 0x51, payload := [BitVec.ofNat 8 r.code, kind] } := by
  rw [requestRow_of_room kind p h s room good, refused]; rfl

/-- A request whose handler answers with data and does nothing else (R188, R189). -/
theorem requestRow_of_data (kind k : Byte) (p bytes : List Byte) (h : List Byte → State → State × Reply) (s : State)
    (room : s.canAnswer) (good : requestLengthOk kind p.length = true) (data : h p s.heard = (s.heard, .data k bytes)) :
    requestRow kind p h s = s.answered { kind := k, payload := bytes } := by
  rw [requestRow_of_room kind p h s room good, data]; rfl

/-! ## Operands -/

@[simp] theorem writerOf_writerNumber (w : WriterId) : writerOf (writerNumber w) = some w := by cases w <;> rfl

/-- A writer's number is its byte's value. -/
@[simp] theorem writerNumber_mod (w : WriterId) : writerNumber w % 256 = writerNumber w := by cases w <;> rfl

@[simp] theorem laneOf_laneNumber (l : LaneId) : laneOf (laneNumber l) = some l := by cases l <;> rfl

/-- A lane's number is its byte's value. -/
@[simp] theorem laneNumber_mod (l : LaneId) : laneNumber l % 256 = laneNumber l := by cases l <;> rfl

theorem writerOf_of_above (n : Nat) (h : 3 < n) : writerOf n = none := by
  unfold writerOf
  iterate 4 rw [if_neg (by omega)]

theorem laneOf_of_above (n : Nat) (h : 1 < n) : laneOf n = none := by
  unfold laneOf
  iterate 2 rw [if_neg (by omega)]

/-- The two-byte number that ends a payload of three bytes (R182). -/
theorem wordAt_one (a lo hi : Byte) : wordAt [a, lo, hi] 1 = lo.toNat + 256 * hi.toNat := by simp [wordAt, leNat]

/-- A clamp from 0 on. -/
theorem clamp_zero (high x : Nat) : clamp 0 high x = min high x := by
  unfold clamp; rw [if_neg (Nat.not_lt_zero x)]; split <;> omega

/-- A clamp between two bounds in their order. -/
theorem clamp_eq (low high x : Nat) (h : low ≤ high) : clamp low high x = max low (min high x) := by
  unfold clamp
  split
  · omega
  · split <;> omega

/-- A character that a word or a label may show: 0x21 to 0x7E. -/
theorem printable_iff (b : Byte) : printable b = true ↔ 0x21 ≤ b.toNat ∧ b.toNat ≤ 0x7E := by
  simp [printable]

/-- The colours in the order of their codes (R182). -/
theorem colourOf_eq (n : Nat) :
    colourOf n = ([.white, .yellow, .cyan, .green, .magenta, .red, .blue] : List Colour)[n]? := by
  rcases n with _ | _ | _ | _ | _ | _ | _ | n <;> rfl

/-- The style of a style byte that names a colour (R182). -/
theorem styleOf_of_colour (b : Byte) (c : Colour) (h : colourOf (b.toNat % 8) = some c) :
    styleOf b = some { colour := c, alignment := if b.getLsbD 3 then .centre else .left, italic := b.getLsbD 4 } := by
  simp [styleOf, h]

/-- A byte names 25 or 30 frames per second, or no rate (R14). -/
theorem rateOf_eq (v : Byte) : rateOf v.toNat = if v = 25 then some .r25 else if v = 30 then some .r30 else none := by
  have as25 : v.toNat = 25 ↔ v = 25 := ⟨fun h => BitVec.eq_of_toNat_eq h, fun h => by rw [h]; rfl⟩
  have as30 : v.toNat = 30 ↔ v = 30 := ⟨fun h => BitVec.eq_of_toNat_eq h, fun h => by rw [h]; rfl⟩
  simp only [rateOf, as25, as30]

/-! ## The setting requests -/

/-- R55: the checks of SET-STYLE. -/
theorem setStyleRequest_eq (n st : Byte) (label : Text) (s : State) :
    setStyleRequest (n :: st :: label) s
      = match styleOf st with
        | none => (s, .refused .badField)
        | some style =>
          if 15 < n.toNat ∨ 8 < label.length ∨ ∃ c ∈ label, ¬ (0x21 ≤ c.toNat ∧ c.toNat ≤ 0x7E) then
            (s, .refused .badField)
          else ({ s with styles := s.styles.setIfInBounds n.toNat { style := style, label := label } }, .ack none) := by
  have shown : (label.any fun b => !printable b) = true ↔ ∃ c ∈ label, ¬ (0x21 ≤ c.toNat ∧ c.toNat ≤ 0x7E) := by
    simp only [List.any_eq_true, Bool.not_eq_true', ← Bool.not_eq_true, printable_iff]
  simp only [← shown]
  rfl

/-- R55: a SET-STYLE whose fields are good. -/
theorem setStyleRequest_of_good (n st : Byte) (colour : Colour) (label : Text) (s : State) (hn : n.toNat ≤ 15)
    (hl : label.length ≤ 8) (hc : colourOf (st.toNat % 8) = some colour)
    (shown : ∀ c ∈ label, 0x21 ≤ c.toNat ∧ c.toNat ≤ 0x7E) :
    setStyleRequest (n :: st :: label) s
      = ({ s with
            styles := s.styles.setIfInBounds n.toNat
              { style := { colour := colour, alignment := if st.getLsbD 3 then .centre else .left
                           italic := st.getLsbD 4 }
                label := label } }, .ack none) := by
  have good : ¬ (15 < n.toNat ∨ 8 < label.length ∨ ∃ c ∈ label, ¬ (0x21 ≤ c.toNat ∧ c.toNat ≤ 0x7E)) := by
    rintro (h | h | ⟨c, hc, h⟩)
    · omega
    · omega
    · exact h (shown c hc)
  rw [setStyleRequest_eq, styleOf_of_colour st colour hc]
  exact if_neg good

/-- R55: a SET-STYLE with a field outside its values. -/
theorem setStyleRequest_of_bad (n st : Byte) (label : Text) (s : State)
    (bad : 15 < n.toNat ∨ st.toNat % 8 = 7 ∨ 8 < label.length ∨ ∃ c ∈ label, ¬ (0x21 ≤ c.toNat ∧ c.toNat ≤ 0x7E)) :
    setStyleRequest (n :: st :: label) s = (s, .refused .badField) := by
  rw [setStyleRequest_eq]
  cases hs : styleOf st with
  | none => rfl
  | some style =>
    have named : st.toNat % 8 ≠ 7 := by
      intro h
      simp [styleOf, colourOf_eq, h] at hs
    exact if_pos (bad.imp_right fun h => h.resolve_left named)

/-- R14: SET-FRAME-RATE. -/
theorem setFrameRateRequest_eq (v : Byte) (s : State) :
    setFrameRateRequest [v] s
      = if v = 25 ∨ v = 30 then
          if (s.lane .lane0).state = .running ∨ (s.lane .lane1).state = .running then (s, .refused .laneRunning)
          else ({ s with time := s.time.withRate (if v = 25 then .r25 else .r30) }, .ack (some v.toNat))
        else (s, .refused .badField) := by
  have running : (s.running .lane0 = true ∨ s.running .lane1 = true)
      ↔ ((s.lane .lane0).state = .running ∨ (s.lane .lane1).state = .running) := by simp [State.running]
  have read : byteAt [v] 0 = v.toNat := rfl
  simp only [setFrameRateRequest, read, rateOf_eq, running]
  by_cases h25 : v = 25
  · simp only [h25, true_or, if_true]; rfl
  · by_cases h30 : v = 30
    · simp only [h30, or_true, if_true]; rfl
    · simp only [h25, h30, or_self, if_false]

/-- R133: SET-SUPERVISION sets the interval, and stops the timer or starts it from the request. -/
theorem setSupervisionRequest_eq (v : Byte) (s : State) :
    setSupervisionRequest [v] s
      = ({ s with
            supervisionInterval := min 60 v.toNat
            supervisionExpiry := if v = 0 then none else some (s.time.sfc + min 60 v.toNat * s.time.rate.hz) },
          .ack (some (min 60 v.toNat))) := by
  have read : byteAt [v] 0 = v.toNat := rfl
  simp only [setSupervisionRequest, read, clamp_zero, State.restartSupervision]
  by_cases h : v = 0
  · subst h; rfl
  · have positive : v.toNat ≠ 0 := fun k => h (BitVec.eq_of_toNat_eq k)
    have interval : min 60 v.toNat ≠ 0 := by omega
    simp only [interval, h, if_false]

/-- Settles O36: each setting request by what its handler answers. -/
theorem settingRequests : Obligations.SettingRequests := by
  unfold Obligations.SettingRequests
  intro s room
  refine ⟨fun w lo hi => ?_, fun v => ?_, fun v => ?_, fun n lo hi above => ?_,
    fun n st colour label hn hl hc shown => ?_, fun n st label fits bad => ?_, fun v => ?_⟩
  · have acked : configureWriterRequest [BitVec.ofNat 8 (writerNumber w), lo, hi] s.heard
        = (s.heard.setWriter w { s.writer w with lag := min 375 (lo.toNat + 256 * hi.toNat) },
            .ack (some (min 375 (lo.toNat + 256 * hi.toNat)))) := by
      simp [configureWriterRequest, byteAt, wordAt_one, clamp_zero]
    exact congrArg _ (requestRow_of_ack 0x21 _ _ s _ _ room rfl acked)
  · have acked : setStyleLimitRequest [v] s.heard
        = ({ s.heard with styleLimit := max 1 (min 16 v.toNat) }, .ack (some (max 1 (min 16 v.toNat)))) := by
      simp [setStyleLimitRequest, byteAt, clamp_eq]
    exact congrArg _ (requestRow_of_ack 0x23 _ _ s _ _ room rfl acked)
  · exact congrArg _ (requestRow_of_ack 0x25 _ _ s _ _ room rfl (setSupervisionRequest_eq v s.heard))
  · have refused : configureWriterRequest [n, lo, hi] s.heard = (s.heard, .refused .badField) := by
      have none_named : writerOf (byteAt [n, lo, hi] 0) = none := writerOf_of_above _ above
      simp only [configureWriterRequest, none_named]
    exact congrArg _ (requestRow_of_refused 0x21 _ _ s _ room rfl refused)
  · have length : requestLengthOk 0x22 (n :: st :: label).length = true := by
      simp only [List.length_cons]; exact decide_eq_true (by omega)
    rw [← colourOf_eq] at hc
    exact congrArg _ (requestRow_of_ack 0x22 _ _ s _ _ room length
      (setStyleRequest_of_good n st colour label s.heard hn hl hc shown))
  · have length : requestLengthOk 0x22 (n :: st :: label).length = true := by
      simp only [List.length_cons]; exact decide_eq_true (by omega)
    exact congrArg _ (requestRow_of_refused 0x22 _ _ s _ room length (setStyleRequest_of_bad n st label s.heard bad))
  · have judged := setFrameRateRequest_eq v s.heard
    split at judged
    · next named =>
      rw [if_pos named]
      split at judged
      · next running =>
        rw [State.heard_lane, State.heard_lane] at running
        rw [if_pos running]
        exact congrArg _ (requestRow_of_refused 0x24 _ _ s _ room rfl judged)
      · next stopped =>
        rw [State.heard_lane, State.heard_lane] at stopped
        rw [if_neg stopped]
        exact congrArg _ (requestRow_of_ack 0x24 _ _ s _ _ room rfl judged)
    · next unnamed =>
      rw [if_neg unnamed]
      exact congrArg _ (requestRow_of_refused 0x24 _ _ s _ room rfl judged)

/-! ## STATUS -/

/-- STATUS answers with its section's payload, or refuses, and does nothing else (R189). -/
theorem exec_status (s : State) (p : List Byte) (room : s.canAnswer) (len : p.length = 3) :
    exec (.status p) s = .next (match statusPayload s.heard (byteAt p 0) (wordAt p 1) with
      | none => s.answered { kind := 0x51, payload := [3, 0x34] }
      | some bytes => s.answered { kind := 0x53, payload := bytes }) := by
  have good : requestLengthOk 0x34 p.length = true := by rw [len]; rfl
  have row : exec (.status p) s = .next (requestRow 0x34 p statusRequest s) := rfl
  rw [row]
  cases h : statusPayload s.heard (byteAt p 0) (wordAt p 1) with
  | none =>
    have refused : statusRequest p s.heard = (s.heard, .refused .badField) := by simp only [statusRequest, h]
    rw [requestRow_of_refused 0x34 p _ s _ room good refused]; rfl
  | some bytes =>
    have data : statusRequest p s.heard = (s.heard, .data statusReplyKind bytes) := by simp only [statusRequest, h]
    rw [requestRow_of_data 0x34 _ p _ _ s room good data]; rfl

/-- A section that STATUS sends (R189). -/
theorem exec_status_of_some (s : State) (sect lo hi : Byte) (bytes : List Byte) (room : s.canAnswer)
    (h : statusPayload s.heard sect.toNat (lo.toNat + 256 * hi.toNat) = some bytes) :
    exec (.status [sect, lo, hi]) s = .next (s.answered { kind := 0x53, payload := bytes }) := by
  rw [exec_status s _ room rfl, wordAt_one]
  have read : byteAt [sect, lo, hi] 0 = sect.toNat := rfl
  rw [read, h]

/-- A section or a lane that STATUS refuses (R189). -/
theorem exec_status_of_none (s : State) (sect lo hi : Byte) (room : s.canAnswer)
    (h : statusPayload s.heard sect.toNat (lo.toNat + 256 * hi.toNat) = none) :
    exec (.status [sect, lo, hi]) s = .next (s.answered { kind := 0x51, payload := [3, 0x34] }) := by
  rw [exec_status s _ room rfl, wordAt_one]
  have read : byteAt [sect, lo, hi] 0 = sect.toNat := rfl
  rw [read, h]

/-- There are five sections (R189). -/
theorem statusPayload_of_above (s : State) (n argument : Nat) (h : 4 < n) : statusPayload s n argument = none := by
  rcases n with _ | _ | _ | _ | _ | n
  iterate 5 exact absurd h (by omega)
  rfl

/-- An absent item is 0xFF in each byte (R189). -/
theorem optBytes_eq (width : Nat) (v : Option Nat) :
    optBytes width v = match v with | none => List.replicate width 0xFF | some v => leBytes width v := by
  cases v <;> rfl

/-! The one-byte codes of the time base and writers sections (R189). -/

theorem leBytes_hz (r : Rate) : leBytes 1 r.hz = [match r with | .r25 => 25 | .r30 => 30] := by cases r <;> rfl

theorem leBytes_source (p : PulseSource) : leBytes 1 p.code = [match p with | .reference => 0 | .internal => 1] := by
  cases p <;> rfl

theorem leBytes_lock (k : LockState) :
    leBytes 1 k.code = [match k with | .search => 0 | .verify => 1 | .locked => 2] := by
  cases k <;> rfl

theorem leBytes_role (x : Role) :
    leBytes 1 x.code = [match x with | .idle => 0 | .onAir _ => 1 | .standby _ => 2] := by
  cases x <;> rfl

theorem optBytes_roleLane (x : Role) :
    optBytes 1 (x.lane.map laneNumber)
      = [match x with
          | .idle => 0xFF
          | .onAir l => BitVec.ofNat 8 (laneNumber l)
          | .standby l => BitVec.ofNat 8 (laneNumber l)] := by
  cases x <;> rfl

theorem leBytes_flag (f : Bool) : leBytes 1 (flagCode f) = [if f then 0 else 1] := by cases f <;> rfl

/-- The items of the schedule's first entry, where there is one (R138). -/
theorem firstCueItems (es : List ScheduledCue) (rest : List Byte) :
    optBytes 6 (es.head?.map ScheduledCue.target) ++ (optBytes 1 (es.head?.map fun e => e.cue.kind.code)
        ++ (optBytes 1 (es.head?.map fun e => e.cue.tag) ++ rest))
      = (match es with
        | [] => List.replicate 8 0xFF
        | e :: _ => leBytes 6 e.target ++ leBytes 1 e.cue.kind.code ++ leBytes 1 e.cue.tag) ++ rest := by
  cases es <;> rfl

/-- Settles O56: each section of STATUS is its items in order. -/
theorem statusChangesNothing : Obligations.StatusChangesNothing := by
  unfold Obligations.StatusChangesNothing
  intro s lo hi room
  refine ⟨fun sect => ?_, fun sect above => ?_, fun above => ?_, ?_, fun l => ?_, ?_, ?_⟩
  · cases h : statusPayload s.heard sect.toNat (lo.toNat + 256 * hi.toNat) with
    | none => exact ⟨_, exec_status_of_none s sect lo hi room h⟩
    | some bytes => exact ⟨_, exec_status_of_some s sect lo hi bytes room h⟩
  · exact exec_status_of_none s sect lo hi room (statusPayload_of_above _ _ _ above)
  · refine exec_status_of_none s 1 lo hi room ?_
    exact congrArg (Option.map _) (laneOf_of_above _ above)
  · refine exec_status_of_some s 0 lo hi _ room ?_
    have payload : statusPayload s.heard 0 (lo.toNat + 256 * hi.toNat) = some ([0] ++ timeItems s.heard) := rfl
    refine payload.trans (congrArg some ?_)
    simp only [timeItems, leBytes_hz, leBytes_source, leBytes_lock, List.append_assoc, firstCueItems]
    simp only [optBytes_eq]
    rfl
  · refine ⟨controlItems s l ++ builderItems (s.lane l) ++ timingItems (s.lane l) ++ displayItems s l
      ++ deckItems (s.lane l).deck, exec_status_of_some s 1 _ 0 _ room ?_⟩
    have lane : laneOf ((BitVec.ofNat 8 (laneNumber l)).toNat + 256 * (0 : Byte).toNat) = some l := by simp
    exact congrArg (Option.map fun l => leBytes 1 1 ++ laneItems s.heard l) lane
  · refine exec_status_of_some s 2 lo hi _ room ?_
    have payload : statusPayload s.heard 2 (lo.toNat + 256 * hi.toNat)
        = some ([2] ++ allWriters.flatMap fun w => writerItems (s.writer w)) := rfl
    refine payload.trans (congrArg some ?_)
    simp only [writerItems, leBytes_role, optBytes_roleLane, leBytes_flag]
    simp only [optBytes_eq]
    rfl
  · exact exec_status_of_some s 4 lo hi _ room rfl

end Sys2Proof.Machine
end

section
/-! PROOF. Power-on: the values of every block (O3), and the laws right after it (O12). -/

namespace Sys2Proof.Machine

/-! ## The power-on values, block by block -/

section PowerOn

variable (straps : BitVec 4)

@[simp] theorem State.powerOn_lane (l : LaneId) :
    (State.powerOn straps).lane l = Lane.powerOn (laneNumber l + 1) := by cases l <;> rfl

@[simp] theorem State.powerOn_writer (w : WriterId) : (State.powerOn straps).writer w = Writer.powerOn := by
  cases w <;> rfl

@[simp] theorem State.powerOn_link (k : Link) : (State.powerOn straps).link k = LinkState.powerOn := by
  obtain w | _ | l := k
  · cases w <;> rfl
  · rfl
  · cases l <;> rfl

@[simp] theorem State.powerOn_store : (State.powerOn straps).store = Store.powerOn := rfl

@[simp] theorem Store.powerOn_page (p : Nat) : Store.powerOn.page p = .empty := by
  simp only [Store.page, Store.powerOn, Vector.getElem?_replicate]
  split <;> rfl

@[simp] theorem Store.powerOn_segment (g : Nat) : Store.powerOn.segment g = none := by
  simp only [Store.segment, Store.powerOn, Vector.getElem?_replicate]
  split <;> rfl

@[simp] theorem Store.powerOn_buffer (b : BufferId) : Store.powerOn.buffer b = LoadBuffer.powerOn := by cases b <;> rfl

/-- R54: every entry of the style table is plain, and entry 1 has the label ">>". -/
theorem powerOnStyles_getElem? (i : Nat) (h : i < 16) :
    powerOnStyles[i]? = some { StyleEntry.plain with label := if i = 1 then [0x3E, 0x3E] else [] } := by
  rw [powerOnStyles, Vector.getElem?_set]
  by_cases h1 : i = 1
  · subst h1; rfl
  · rw [if_neg (Ne.symm h1), Vector.getElem?_replicate, if_pos h, if_neg h1]; rfl

/-- The part after POWER_ON keeps only the queue of waiting commands. -/
theorem exec_powerOn (s : State) :
    exec (.powerOn straps) s = .next { State.powerOn straps with pending := s.pending } := rfl

/-! ## The laws at power-on -/

theorem State.powerOn_withinCapacity : (State.powerOn straps).withinCapacity := by
  refine ⟨fun l => ?_, fun w => ?_, Nat.zero_le _, trivial, Nat.zero_le _, fun w => ?_, Nat.zero_le _, fun l => ?_,
    fun k => ?_⟩
  · rw [State.powerOn_lane]; exact ⟨Nat.zero_le _, Nat.zero_le _, Nat.zero_le _, Nat.zero_le _⟩
  · rw [State.powerOn_writer]; exact Nat.zero_le _
  · rw [State.powerOn_link]; exact ⟨Nat.zero_le _, Nat.zero_le _, by simp [LinkState.powerOn]⟩
  · rw [State.powerOn_link]; exact Nat.zero_le _
  · rw [State.powerOn_link]; exact Nat.zero_le _

theorem State.powerOn_countersWithin : (State.powerOn straps).countersWithin := by
  refine ⟨fun l => ?_, fun w => ?_, fun k => ?_⟩
  · rw [State.powerOn_lane]; simp [Counters.within, Lane.powerOn, Counters.zero]
  · rw [State.powerOn_writer]; exact Nat.zero_le _
  · rw [State.powerOn_link]; simp [LinkState.countsWithin, LinkState.powerOn]

/-- The defaults lie in the ranges of the parameter table (R88, R89). -/
theorem Params.default_inRange (group : Nat) (h : group ≤ 255) : (Params.default group).inRange := by
  simp [Params.inRange, Params.default, h]

theorem Lane.powerOn_inRange (l : LaneId) : (Lane.powerOn (laneNumber l + 1)).params.inRange :=
  Params.default_inRange _ (by cases l <;> decide)

theorem State.powerOn_paramsInRange : (State.powerOn straps).paramsInRange := by
  refine ⟨fun l => ?_, fun w => ?_, ?_⟩
  · rw [State.powerOn_lane]; exact Lane.powerOn_inRange l
  · rw [State.powerOn_writer]; simp [Writer.powerOn]
  · simp [State.powerOn]

theorem State.powerOn_rolesLawful : (State.powerOn straps).rolesLawful := by
  simp [State.rolesLawful, Writer.powerOn]

theorem TimeBase.powerOn_lawful : TimeBase.powerOn.lawful := by
  simp [TimeBase.lawful, TimeBase.powerOn, Rate.day, Rate.hz]

theorem Builder.powerOn_unitsHoldWords : Builder.powerOn.unitsHoldWords := by
  simp [Builder.unitsHoldWords, Builder.powerOn]

theorem DisplaySet.resetAt_serialLawful (sfc : Nat) : (DisplaySet.resetAt sfc).serialLawful := by
  simp [DisplaySet.serialLawful, DisplaySet.resetAt, Image.blank]

/-- A lane at power-on is STOPPED and empty, and nothing waits on it. -/
theorem Lane.powerOn_timelineLawful (group : Nat) : (Lane.powerOn group).timelineLawful := by
  have walk : (Lane.powerOn group).walk = [] := rfl
  have record : (Lane.powerOn group).engine.record = none := rfl
  have ready : (Lane.powerOn group).display.nextReady = false := rfl
  simp only [Lane.timelineLawful, walk, record, ready]
  refine ⟨fun _ => ⟨rfl, rfl, rfl, rfl, rfl, rfl, fun g => ?_, rfl⟩, trivial, by simp, trivial, by simp⟩
  simp [Lane.powerOn, Deck.powerOn]

theorem State.powerOn_timelinesLawful : (State.powerOn straps).timelinesLawful := by
  intro l
  rw [State.powerOn_lane]
  exact ⟨Lane.powerOn_timelineLawful _, DisplaySet.resetAt_serialLawful 0, Lane.powerOn_inRange l,
    Builder.powerOn_unitsHoldWords⟩

theorem State.powerOn_storeLawful : (State.powerOn straps).storeLawful := by
  have engine : Store.powerOn.engine = .idle := rfl
  have deck (l : LaneId) : (Lane.powerOn (laneNumber l + 1)).deck.state = .empty := rfl
  have source (l : LaneId) : (Lane.powerOn (laneNumber l + 1)).source = .live := rfl
  simp only [State.storeLawful, State.powerOn_store, State.powerOn_lane, Store.powerOn_page, Store.powerOn_segment,
    Store.powerOn_buffer, Deck.preparing, engine, deck, source]
  exact ⟨rfl, nofun, fun _ => ⟨rfl, nofun⟩, by simp, by simp [LoadBuffer.powerOn], by simp, nofun, nofun, by simp⟩

end PowerOn

/-- Settles O3, block by block. -/
theorem powerOnValues : Obligations.PowerOnValues := by
  unfold Obligations.PowerOnValues
  intro straps s
  refine ⟨_, exec_powerOn straps s, rfl, rfl, rfl, State.powerOn_writer straps, fun l => ?_, powerOnStyles_getElem?,
    rfl, rfl, rfl, rfl, rfl, rfl, rfl, rfl, rfl, Store.powerOn_page, fun _ => rfl, Store.powerOn_segment, fun b a => ?_,
    rfl, rfl, fun k => ?_⟩
  · have lane : ({ State.powerOn straps with pending := s.pending } : State).lane l = Lane.powerOn (laneNumber l + 1) :=
      State.powerOn_lane straps l
    rw [lane]
    exact ⟨rfl, rfl, rfl, rfl, rfl, rfl, rfl, rfl, rfl, rfl⟩
  · cases b <;> exact ⟨rfl, rfl⟩
  · have link : ({ State.powerOn straps with pending := s.pending } : State).link k = LinkState.powerOn :=
      State.powerOn_link straps k
    rw [link]
    exact ⟨rfl, rfl, rfl, rfl, rfl, rfl⟩

/-- Settles O12: the laws hold for every strap value, and reset is power-on with the straps low. -/
theorem lawsHoldAtPowerOn : Obligations.LawsHoldAtPowerOn := by
  have laws (straps : BitVec 4) := And.intro (State.powerOn_withinCapacity straps) <|
    And.intro (State.powerOn_countersWithin straps) <| And.intro (State.powerOn_paramsInRange straps) <|
    And.intro (State.powerOn_rolesLawful straps) <| And.intro TimeBase.powerOn_lawful <|
    And.intro (State.powerOn_timelinesLawful straps) (State.powerOn_storeLawful straps)
  exact ⟨laws, laws 0⟩

end Sys2Proof.Machine
end

section
/-! PROOF. What each operation leaves of the time base and the part address: every one leaves both alone, but the
frame events, the close of the window, SET-FRAME-RATE and power-on. -/

namespace Sys2Proof.Machine

/-! ## Reports, links and folds -/

@[simp] theorem State.report_clock (s : State) (k : ReportKind) (l : Option LaneId) (w : Option WriterId)
    (v : Option Nat) : (s.report k l w v).time = s.time ∧ (s.report k l w v).partAddress = s.partAddress := by
  simp [State.report]

@[simp] theorem State.announceRole_clock (s : State) (w : WriterId) :
    (s.announceRole w).time = s.time ∧ (s.announceRole w).partAddress = s.partAddress := ⟨rfl, rfl⟩

@[simp] theorem State.refuseWriter_clock (s : State) (w : WriterId) (r : Reason) (kind : Byte) :
    (s.refuseWriter w r kind).time = s.time ∧ (s.refuseWriter w r kind).partAddress = s.partAddress := ⟨rfl, rfl⟩

@[simp] theorem State.send_clock (s : State) (k : Link) (f : TxFrame) :
    (s.send k f).time = s.time ∧ (s.send k f).partAddress = s.partAddress := ⟨rfl, rfl⟩

@[simp] theorem State.answer_clock (s : State) (kind : Byte) (r : Reply) :
    (s.answer kind r).time = s.time ∧ (s.answer kind r).partAddress = s.partAddress := ⟨rfl, rfl⟩

@[simp] theorem State.countGood_clock (s : State) (k : Link) :
    (s.countGood k).time = s.time ∧ (s.countGood k).partAddress = s.partAddress := ⟨rfl, rfl⟩

@[simp] theorem State.frameClosed_clock (s : State) (k : Link) :
    (s.frameClosed k).time = s.time ∧ (s.frameClosed k).partAddress = s.partAddress := ⟨rfl, rfl⟩

@[simp] theorem State.goodFrame_clock (s : State) (k : Link) :
    (s.goodFrame k).time = s.time ∧ (s.goodFrame k).partAddress = s.partAddress := ⟨rfl, rfl⟩

@[simp] theorem State.restartSupervision_clock (s : State) :
    s.restartSupervision.time = s.time ∧ s.restartSupervision.partAddress = s.partAddress := by
  unfold State.restartSupervision; split <;> exact ⟨rfl, rfl⟩

@[simp] theorem State.automationGood_clock (s : State) :
    s.automationGood.time = s.time ∧ s.automationGood.partAddress = s.partAddress := by
  simp [State.automationGood]

@[simp] theorem State.withStore_clock (s : State) (x : Store) :
    (s.withStore x).time = s.time ∧ (s.withStore x).partAddress = s.partAddress := ⟨rfl, rfl⟩

/-- A fold of operations that leave the clock alone leaves it alone. -/
theorem foldl_clock {α : Type} (f : State → α → State)
    (keeps : ∀ s a, (f s a).time = s.time ∧ (f s a).partAddress = s.partAddress) (as : List α) (s : State) :
    (as.foldl f s).time = s.time ∧ (as.foldl f s).partAddress = s.partAddress := by
  induction as generalizing s with
  | nil => exact ⟨rfl, rfl⟩
  | cons a as ih =>
    obtain ⟨time, address⟩ := ih (f s a)
    exact ⟨time.trans (keeps s a).1, address.trans (keeps s a).2⟩

/-! ## Cues and withdraw -/

@[simp] theorem State.join_clock (s : State) : s.join.time = s.time ∧ s.join.partAddress = s.partAddress := by
  unfold State.join; dsimp only; split <;> simp

@[simp] theorem State.split_clock (s : State) : s.split.time = s.time ∧ s.split.partAddress = s.partAddress := by
  simp [State.split]

@[simp] theorem State.cueOnLane_clock (s : State) (c : Cue) (l : LaneId) :
    (s.cueOnLane c l).time = s.time ∧ (s.cueOnLane c l).partAddress = s.partAddress := by
  unfold State.cueOnLane
  split
  · exact s.join_clock
  · exact s.split_clock
  · split <;> simp

@[simp] theorem State.cueIfAddressed_clock (s : State) (c : Cue) (l : LaneId) :
    (s.cueIfAddressed c l).time = s.time ∧ (s.cueIfAddressed c l).partAddress = s.partAddress := by
  unfold State.cueIfAddressed; split <;> simp

@[simp] theorem State.executeCue_clock (s : State) (c : Cue) :
    (s.executeCue c).time = s.time ∧ (s.executeCue c).partAddress = s.partAddress := by
  simp [State.executeCue]

@[simp] theorem State.withdraw_clock (s : State) (byExpiry : Bool) :
    (s.withdraw byExpiry).time = s.time ∧ (s.withdraw byExpiry).partAddress = s.partAddress := by
  simp [State.withdraw]

@[simp] theorem State.refuseCueArrival_clock (s : State) (r : Reason) (p : List Byte) :
    (s.refuseCueArrival r p).time = s.time ∧ (s.refuseCueArrival r p).partAddress = s.partAddress := by
  simp [State.refuseCueArrival]

@[simp] theorem State.acceptCue_clock (s : State) (p : List Byte) (c : Cue) (target : Option Nat) :
    (s.acceptCue p c target).1.time = s.time ∧ (s.acceptCue p c target).1.partAddress = s.partAddress := by
  unfold State.acceptCue
  split
  · simp
  · split
    · simp
    · simp
    · split <;> simp

@[simp] theorem takeCueFrame_clock (p : List Byte) (s : State) :
    (takeCueFrame p s).1.time = s.time ∧ (takeCueFrame p s).1.partAddress = s.partAddress := by
  unfold takeCueFrame
  split
  · simp
  · split <;> simp

/-! ## Writers -/

@[simp] theorem State.leaveRole_clock (s : State) (w : WriterId) :
    (s.leaveRole w).time = s.time ∧ (s.leaveRole w).partAddress = s.partAddress := by
  unfold State.leaveRole; cases (s.writer w).role <;> simp

@[simp] theorem State.assignRole_clock (s : State) (w : WriterId) (x : Role) :
    (s.assignRole w x).time = s.time ∧ (s.assignRole w x).partAddress = s.partAddress := by
  unfold State.assignRole
  dsimp only
  cases x with
  | idle => simp
  | onAir l => dsimp only; split <;> simp
  | standby l => dsimp only; split <;> simp

@[simp] theorem announceChanges_clock (before : PerWriter Writer) (s : State) :
    (announceChanges before s).time = s.time ∧ (announceChanges before s).partAddress = s.partAddress :=
  foldl_clock _ (fun s w => by split <;> simp) _ _

@[simp] theorem State.stageWord_clock (s : State) (w : WriterId) (l : LaneId) (t : Text) (attach : Bool) :
    (s.stageWord w l t attach).time = s.time ∧ (s.stageWord w l t attach).partAddress = s.partAddress := by
  unfold State.stageWord; dsimp only; split <;> simp

@[simp] theorem State.relayLane_clock (s : State) (l : LaneId) (w : WriterId) (out : Bool) :
    (s.relayLane l w out).1.time = s.time ∧ (s.relayLane l w out).1.partAddress = s.partAddress := by
  simp [State.relayLane]

@[simp] theorem State.exchangeRoles_clock (s : State) (l : LaneId) (w : WriterId) (out : Option WriterId) :
    (s.exchangeRoles l w out).time = s.time ∧ (s.exchangeRoles l w out).partAddress = s.partAddress := by
  unfold State.exchangeRoles; cases out <;> simp

@[simp] theorem State.relay_clock (s : State) (l : LaneId) (w : WriterId) :
    (s.relay l w).time = s.time ∧ (s.relay l w).partAddress = s.partAddress := by
  unfold State.relay
  cases s.holder (.onAir l) <;> cases s.running l <;> simp

@[simp] theorem State.reportSubstituted_clock (s : State) (w : WriterId) (l : LaneId) (t : Text) :
    (s.reportSubstituted w l t).time = s.time ∧ (s.reportSubstituted w l t).partAddress = s.partAddress := by
  unfold State.reportSubstituted; split <;> simp

/-- A message that is judged leaves the clock alone where its three acts do. -/
theorem State.judgeMessage_clock (s : State) (w : WriterId) (kind : Byte) (bad : Option Reason)
    (suppressed onAir staged : State → LaneId → State)
    (h1 : ∀ s l, (suppressed s l).time = s.time ∧ (suppressed s l).partAddress = s.partAddress)
    (h2 : ∀ s l, (onAir s l).time = s.time ∧ (onAir s l).partAddress = s.partAddress)
    (h3 : ∀ s l, (staged s l).time = s.time ∧ (staged s l).partAddress = s.partAddress) :
    (s.judgeMessage w kind bad suppressed onAir staged).time = s.time
      ∧ (s.judgeMessage w kind bad suppressed onAir staged).partAddress = s.partAddress := by
  unfold State.judgeMessage
  split
  · simp
  · split
    · split
      · simp
      · split
        · exact h1 ..
        · exact h2 ..
    · simp
  · split
    · simp
    · exact h3 ..

@[simp] theorem State.takeWord_clock (s : State) (w : WriterId) (p : List Byte) :
    (s.takeWord w p).time = s.time ∧ (s.takeWord w p).partAddress = s.partAddress := by
  unfold State.takeWord
  split
  · simp
  · exact s.judgeMessage_clock w _ _ _ _ _ (fun _ _ => by simp) (fun _ _ => by simp) (fun _ _ => by simp)

@[simp] theorem State.takeBreak_clock (s : State) (w : WriterId) (p : List Byte) :
    (s.takeBreak w p).time = s.time ∧ (s.takeBreak w p).partAddress = s.partAddress := by
  unfold State.takeBreak
  split
  · simp
  · exact s.judgeMessage_clock w _ _ _ _ _ (fun _ _ => by simp) (fun _ _ => by simp) (fun _ _ => by simp)

@[simp] theorem State.takeSpeaker_clock (s : State) (w : WriterId) (p : List Byte) :
    (s.takeSpeaker w p).time = s.time ∧ (s.takeSpeaker w p).partAddress = s.partAddress := by
  unfold State.takeSpeaker
  split
  · exact s.judgeMessage_clock w _ _ _ _ _ (fun _ _ => by simp) (fun _ _ => by simp) (fun _ _ => by simp)
  · simp

@[simp] theorem State.takeDelete_clock (s : State) (w : WriterId) (p : List Byte) :
    (s.takeDelete w p).time = s.time ∧ (s.takeDelete w p).partAddress = s.partAddress := by
  unfold State.takeDelete
  split
  · exact s.judgeMessage_clock w _ _ _ _ _ (fun _ _ => by simp) (fun _ _ => by simp) (fun _ _ => by simp)
  · simp

@[simp] theorem State.takeTake_clock (s : State) (w : WriterId) (p : List Byte) :
    (s.takeTake w p).time = s.time ∧ (s.takeTake w p).partAddress = s.partAddress := by
  unfold State.takeTake
  split
  · simp
  · split <;> simp

@[simp] theorem State.takeQuery_clock (s : State) (w : WriterId) (p : List Byte) :
    (s.takeQuery w p).time = s.time ∧ (s.takeQuery w p).partAddress = s.partAddress := by
  unfold State.takeQuery; split <;> simp

@[simp] theorem State.takeMessage_clock (s : State) (w : WriterId) (kind : Byte) (p : List Byte) :
    (s.takeMessage w kind p).time = s.time ∧ (s.takeMessage w kind p).partAddress = s.partAddress := by
  unfold State.takeMessage
  split_ifs <;> simp

/-! ## Inserters -/

@[simp] theorem State.replyOwn_clock (s : State) (l : LaneId) (everyFrame : Bool) :
    (s.replyOwn l everyFrame).time = s.time ∧ (s.replyOwn l everyFrame).partAddress = s.partAddress := by
  unfold State.replyOwn; dsimp only; split <;> simp

@[simp] theorem State.replyFollowing_clock (s : State) :
    s.replyFollowing.time = s.time ∧ s.replyFollowing.partAddress = s.partAddress := by
  unfold State.replyFollowing; dsimp only; split <;> simp

@[simp] theorem State.takeRequest_clock (s : State) (l : LaneId) (word : TimecodeWord) :
    (s.takeRequest l word).time = s.time ∧ (s.takeRequest l word).partAddress = s.partAddress := by
  unfold State.takeRequest
  dsimp only
  split
  · simp
  · split <;> simp

@[simp] theorem State.inserterFrame_clock (s : State) (l : LaneId) (kind : Byte) (p : List Byte) :
    (s.inserterFrame l kind p).time = s.time ∧ (s.inserterFrame l kind p).partAddress = s.partAddress := by
  unfold State.inserterFrame
  dsimp only
  split_ifs <;> simp

/-! ## The store and the report unit -/

@[simp] theorem State.resetStore_clock (s : State) :
    s.resetStore.time = s.time ∧ s.resetStore.partAddress = s.partAddress := by
  unfold State.resetStore; cases s.store.engine <;> simp

@[simp] theorem State.completeCommit_clock (s : State) :
    s.completeCommit.time = s.time ∧ s.completeCommit.partAddress = s.partAddress := by
  unfold State.completeCommit; cases s.store.engine <;> simp

@[simp] theorem State.completeCompare_clock (s : State) :
    s.completeCompare.time = s.time ∧ s.completeCompare.partAddress = s.partAddress := by
  unfold State.completeCompare; cases s.store.engine <;> simp

@[simp] theorem State.completePrepare_clock (s : State) :
    s.completePrepare.time = s.time ∧ s.completePrepare.partAddress = s.partAddress := by
  unfold State.completePrepare; cases s.store.engine <;> simp

@[simp] theorem State.resetReports_clock (s : State) :
    s.resetReports.time = s.time ∧ s.resetReports.partAddress = s.partAddress := by
  simp [State.resetReports]

@[simp] theorem State.resetBlocks_clock (s : State) :
    s.resetBlocks.time = s.time ∧ s.resetBlocks.partAddress = s.partAddress := ⟨rfl, rfl⟩

@[simp] theorem State.transmit_clock (s : State) (k : Link) :
    (s.transmit k).time = s.time ∧ (s.transmit k).partAddress = s.partAddress := by
  unfold State.transmit; split <;> simp

@[simp] theorem State.forgetFollowed_clock (s : State) (l : LaneId) :
    (s.forgetFollowed l).time = s.time ∧ (s.forgetFollowed l).partAddress = s.partAddress := by
  cases l <;> exact ⟨rfl, rfl⟩

end Sys2Proof.Machine
end

section
/-! PROOF. Everything a command can do to the time base and the part address, and from it O4 and O9. -/

namespace Sys2Proof.Machine

/-! ## Rows that hold the clock -/

/-- The part address stays, and the time base stays or takes a frame rate (R14, R192). -/
def State.holdsClock (s t : State) : Prop :=
  t.partAddress = s.partAddress ∧ (t.time = s.time ∨ ∃ r, t.time = s.time.withRate r)

theorem State.holdsClock_of_same {s t : State} (h : t.time = s.time ∧ t.partAddress = s.partAddress) : s.holdsClock t :=
  ⟨h.2, .inl h.1⟩

theorem State.holdsClock_refl (s : State) : s.holdsClock s := ⟨rfl, .inl rfl⟩

/-- A second frame rate replaces the first. -/
theorem TimeBase.withRate_withRate (t : TimeBase) (r q : Rate) : (t.withRate r).withRate q = t.withRate q := rfl

theorem State.holdsClock_trans {s t u : State} (h : s.holdsClock t) (k : t.holdsClock u) : s.holdsClock u := by
  obtain ⟨address, time⟩ := h
  obtain ⟨address', time'⟩ := k
  refine ⟨address'.trans address, ?_⟩
  obtain same | ⟨r, rated⟩ := time
  · rwa [same] at time'
  · rw [rated] at time'
    exact .inr (time'.elim (fun same => ⟨r, same⟩) fun ⟨q, rated'⟩ => ⟨q, rated'.trans (s.time.withRate_withRate r q)⟩)

theorem foldl_holdsClock {α : Type} (f : State → α → State) (keeps : ∀ (s : State) (a : α), s.holdsClock (f s a))
    (as : List α) (s : State) : s.holdsClock (as.foldl f s) := by
  induction as generalizing s with
  | nil => exact s.holdsClock_refl
  | cons a as ih => exact State.holdsClock_trans (keeps s a) (ih (f s a))

/-! ## Requests -/

section Handlers

variable (p : List Byte) (s : State)

theorem configureLaneRequest_clock :
    (configureLaneRequest p s).1.time = s.time ∧ (configureLaneRequest p s).1.partAddress = s.partAddress := by
  unfold configureLaneRequest
  split
  · simp
  · split
    · simp
    · split <;> simp

theorem configureWriterRequest_clock :
    (configureWriterRequest p s).1.time = s.time ∧ (configureWriterRequest p s).1.partAddress = s.partAddress := by
  unfold configureWriterRequest; split <;> simp

theorem setStyleRequest_clock :
    (setStyleRequest p s).1.time = s.time ∧ (setStyleRequest p s).1.partAddress = s.partAddress := by
  unfold setStyleRequest
  dsimp only
  split
  · simp
  · split <;> simp

theorem setStyleLimitRequest_clock :
    (setStyleLimitRequest p s).1.time = s.time ∧ (setStyleLimitRequest p s).1.partAddress = s.partAddress := ⟨rfl, rfl⟩

/-- R14: SET-FRAME-RATE is the one request that reaches the time base. -/
theorem setFrameRateRequest_holdsClock : s.holdsClock (setFrameRateRequest p s).1 := by
  unfold setFrameRateRequest
  split
  · exact s.holdsClock_refl
  · next r _ =>
    split
    · exact s.holdsClock_refl
    · exact ⟨rfl, .inr ⟨r, rfl⟩⟩

theorem setSupervisionRequest_clock :
    (setSupervisionRequest p s).1.time = s.time ∧ (setSupervisionRequest p s).1.partAddress = s.partAddress := by
  unfold setSupervisionRequest
  dsimp only
  split <;> simp

theorem assignRequest_clock :
    (assignRequest p s).1.time = s.time ∧ (assignRequest p s).1.partAddress = s.partAddress := by
  unfold assignRequest; split <;> simp

theorem handoverRequest_clock :
    (handoverRequest p s).1.time = s.time ∧ (handoverRequest p s).1.partAddress = s.partAddress := by
  unfold handoverRequest
  split
  · simp
  · split <;> simp

theorem startRequest_clock :
    (startRequest p s).1.time = s.time ∧ (startRequest p s).1.partAddress = s.partAddress := by
  unfold startRequest
  split
  · simp
  · split <;> simp

theorem stopRequest_clock : (stopRequest p s).1.time = s.time ∧ (stopRequest p s).1.partAddress = s.partAddress := by
  unfold stopRequest
  split
  · simp
  · split <;> simp

theorem loadBufferRequest_clock :
    (loadBufferRequest p s).1.time = s.time ∧ (loadBufferRequest p s).1.partAddress = s.partAddress := by
  unfold loadBufferRequest
  dsimp only
  split
  · simp
  · split_ifs <;> simp

theorem commitRequest_clock :
    (commitRequest p s).1.time = s.time ∧ (commitRequest p s).1.partAddress = s.partAddress := by
  unfold commitRequest
  dsimp only
  split
  · simp
  · split_ifs <;> simp

theorem compareRequest_clock :
    (compareRequest p s).1.time = s.time ∧ (compareRequest p s).1.partAddress = s.partAddress := by
  unfold compareRequest
  dsimp only
  split
  · simp
  · split_ifs <;> simp

theorem defineSegmentRequest_clock :
    (defineSegmentRequest p s).1.time = s.time ∧ (defineSegmentRequest p s).1.partAddress = s.partAddress := by
  unfold defineSegmentRequest
  dsimp only
  split_ifs <;> simp

theorem deleteSegmentRequest_clock :
    (deleteSegmentRequest p s).1.time = s.time ∧ (deleteSegmentRequest p s).1.partAddress = s.partAddress := by
  unfold deleteSegmentRequest
  dsimp only
  split_ifs <;> simp

theorem prepareRequest_clock :
    (prepareRequest p s).1.time = s.time ∧ (prepareRequest p s).1.partAddress = s.partAddress := by
  unfold prepareRequest
  dsimp only
  split
  · simp
  · split
    · simp
    · split <;> simp

theorem storeResetRequest_clock :
    (storeResetRequest p s).1.time = s.time ∧ (storeResetRequest p s).1.partAddress = s.partAddress :=
  s.resetStore_clock

theorem cancelCueRequest_clock :
    (cancelCueRequest p s).1.time = s.time ∧ (cancelCueRequest p s).1.partAddress = s.partAddress := ⟨rfl, rfl⟩

theorem releaseRequest_clock :
    (releaseRequest p s).1.time = s.time ∧ (releaseRequest p s).1.partAddress = s.partAddress := s.withdraw_clock false

theorem pollRequest_clock : (pollRequest p s).1.time = s.time ∧ (pollRequest p s).1.partAddress = s.partAddress :=
  ⟨rfl, rfl⟩

theorem statusRequest_clock :
    (statusRequest p s).1.time = s.time ∧ (statusRequest p s).1.partAddress = s.partAddress := by
  unfold statusRequest; split <;> exact ⟨rfl, rfl⟩

theorem clearCountersRequest_clock :
    (clearCountersRequest p s).1.time = s.time ∧ (clearCountersRequest p s).1.partAddress = s.partAddress := ⟨rfl, rfl⟩

theorem engineResetRequest_clock :
    (engineResetRequest p s).1.time = s.time ∧ (engineResetRequest p s).1.partAddress = s.partAddress := by
  simp [engineResetRequest]

end Handlers

/-- Every request of the table holds the clock. -/
theorem requestHandler_holdsClock (kind : Byte) (handle : List Byte → State → State × Reply)
    (h : requestHandler kind = some handle) (p : List Byte) (s : State) : s.holdsClock (handle p s).1 := by
  unfold requestHandler at h
  split at h
  any_goals obtain rfl := Option.some.inj h
  · exact State.holdsClock_of_same (configureLaneRequest_clock p s)
  · exact State.holdsClock_of_same (configureWriterRequest_clock p s)
  · exact State.holdsClock_of_same (setStyleRequest_clock p s)
  · exact State.holdsClock_of_same (setStyleLimitRequest_clock p s)
  · exact setFrameRateRequest_holdsClock p s
  · exact State.holdsClock_of_same (setSupervisionRequest_clock p s)
  · exact State.holdsClock_of_same (assignRequest_clock p s)
  · exact State.holdsClock_of_same (handoverRequest_clock p s)
  · exact State.holdsClock_of_same (startRequest_clock p s)
  · exact State.holdsClock_of_same (stopRequest_clock p s)
  · exact State.holdsClock_of_same (loadBufferRequest_clock p s)
  · exact State.holdsClock_of_same (commitRequest_clock p s)
  · exact State.holdsClock_of_same (compareRequest_clock p s)
  · exact State.holdsClock_of_same (defineSegmentRequest_clock p s)
  · exact State.holdsClock_of_same (deleteSegmentRequest_clock p s)
  · exact State.holdsClock_of_same (prepareRequest_clock p s)
  · exact State.holdsClock_of_same (storeResetRequest_clock p s)
  · exact State.holdsClock_of_same (cancelCueRequest_clock p s)
  · exact State.holdsClock_of_same (releaseRequest_clock p s)
  · exact State.holdsClock_of_same (pollRequest_clock p s)
  · exact State.holdsClock_of_same (statusRequest_clock p s)
  · exact State.holdsClock_of_same (clearCountersRequest_clock p s)
  · exact State.holdsClock_of_same (engineResetRequest_clock p s)
  · cases h

/-! ## Frames -/

/-- A frame of link A that is held back, refused or answered holds the clock where its handler does. -/
theorem State.serve_holdsClock (s : State) (kind : Byte) (ok : Bool) (p : List Byte)
    (handle : List Byte → State → State × Reply) (keeps : s.holdsClock (handle p s).1) :
    s.holdsClock (s.serve kind ok p handle) := by
  unfold State.serve
  split
  · exact s.holdsClock_refl
  · split
    · exact State.holdsClock_trans keeps (State.holdsClock_of_same (State.answer_clock ..))
    · exact State.holdsClock_of_same (State.answer_clock ..)

theorem State.automationGood_holdsClock (s : State) : s.holdsClock s.automationGood :=
  State.holdsClock_of_same s.automationGood_clock

theorem State.frameClosed_holdsClock (s : State) (k : Link) : s.holdsClock (s.frameClosed k) :=
  State.holdsClock_of_same (s.frameClosed_clock k)

theorem State.request_holdsClock (s : State) (kind : Byte) (p : List Byte)
    (handle : List Byte → State → State × Reply) (h : requestHandler kind = some handle) :
    s.holdsClock (s.request kind p handle) :=
  State.holdsClock_trans s.automationGood_holdsClock
    (State.serve_holdsClock _ _ _ _ _ (requestHandler_holdsClock kind handle h p _))

theorem requestRow_holdsClock (kind : Byte) (p : List Byte) (handle : List Byte → State → State × Reply) (s : State)
    (h : requestHandler kind = some handle) : s.holdsClock (requestRow kind p handle s) :=
  State.holdsClock_trans (s.frameClosed_holdsClock .automation) (State.request_holdsClock _ kind p handle h)

theorem State.cueFrame_holdsClock (s : State) (broadcast : Bool) (p : List Byte) :
    s.holdsClock (s.cueFrame broadcast p) := by
  have taken := State.holdsClock_of_same (takeCueFrame_clock p s.automationGood)
  unfold State.cueFrame
  split
  · exact State.holdsClock_trans s.automationGood_holdsClock taken
  · exact State.holdsClock_trans s.automationGood_holdsClock (State.serve_holdsClock _ _ _ _ _ taken)

theorem cueRow_holdsClock (kind : CueKind) (broadcast : Bool) (rest : List Byte) (s : State) :
    s.holdsClock (cueRow kind broadcast rest s) :=
  State.holdsClock_trans (s.frameClosed_holdsClock .automation) (State.cueFrame_holdsClock ..)

theorem State.automationFrame_holdsClock (s : State) (kind : Byte) (p : List Byte) :
    s.holdsClock (s.automationFrame kind p) := by
  unfold State.automationFrame
  split
  · exact s.cueFrame_holdsClock false p
  · split
    · next handle h => exact s.request_holdsClock kind p handle h
    · unfold State.refuseKind
      dsimp only
      split
      · exact s.automationGood_holdsClock
      · exact State.holdsClock_of_same (by simp)

theorem State.filterFrame_holdsClock (s : State) (k : Link) (address kind : Byte) (p : List Byte) :
    s.holdsClock (s.filterFrame k address kind p) := by
  unfold State.filterFrame
  split
  · cases k with
    | writer w => exact State.holdsClock_of_same (by simp [State.deliver])
    | automation => exact s.automationFrame_holdsClock kind p
    | inserter l => exact State.holdsClock_of_same (by simp [State.deliver])
  · split
    · split
      · exact s.cueFrame_holdsClock true p
      · exact State.holdsClock_of_same s.restartSupervision_clock
    · exact s.holdsClock_refl

theorem State.receiverEvent_holdsClock (k : Link) (s : State) (e : RxEvent) :
    s.holdsClock (State.receiverEvent k s e) := by
  cases e with
  | frame address kind p => exact s.filterFrame_holdsClock k address kind p
  | abort => exact State.holdsClock_of_same ⟨rfl, rfl⟩
  | checkError => exact State.holdsClock_of_same ⟨rfl, rfl⟩
  | sizeError => exact State.holdsClock_of_same ⟨rfl, rfl⟩

/-- Line bytes of any kind hold the clock: the frames among them are requests, cues and messages. -/
theorem State.receive_holdsClock (s : State) (k : Link) (line : List LineByte) : s.holdsClock (s.receive k line) :=
  State.holdsClock_trans (State.holdsClock_of_same ⟨rfl, rfl⟩)
    (foldl_holdsClock _ (State.receiverEvent_holdsClock k) _ _)

/-! ## Commands -/

/-- Everything a command can do to the time base and the part address. -/
inductive ClockStep (s : State) : Instr → State → Prop
  | powerOn (straps : BitVec 4) (t : State) (time : t.time = TimeBase.powerOn) : ClockStep s (.powerOn straps) t
  | pulse (tc : Option TimecodeWord) (t : State) (address : t.partAddress = s.partAddress)
      (time : t.time = (s.time.pulse tc).1) : ClockStep s (.pulseArrival tc) t
  | supervision (t : State) (address : t.partAddress = s.partAddress)
      (time : t.time = s.time.supervisionExpiry.1) : ClockStep s .pulseSupervisionExpiry t
  | generator (t : State) (address : t.partAddress = s.partAddress) (source : s.time.source = .internal)
      (time : t.time = s.time.generatorExpiry.1) : ClockStep s .internalGeneratorExpiry t
  | windowClose (t : State) (address : t.partAddress = s.partAddress)
      (time : t.time = { s.time with window := false }) : ClockStep s .sameFrameWindowClose t
  | held (c : Instr) (t : State) (held : s.holdsClock t) : ClockStep s c t

@[simp] theorem State.withTime_partAddress (s : State) (x : TimeBase × List Report) :
    (s.withTime x).partAddress = s.partAddress := by simp [State.withTime]

/-! The commands whose arms are conditional or folds. -/

theorem exec_cueScheduleDue (s : State) :
    exec .cueScheduleDue s = .next ((dueCues s.time.sfc s.schedule).1.foldl (fun s e => s.executeCue e.cue)
      { s with schedule := (dueCues s.time.sfc s.schedule).2 }) := rfl

theorem exec_automationSupervisionExpiry_clock (s : State) : ∃ t, exec .automationSupervisionExpiry s = .next t
    ∧ t.time = s.time ∧ t.partAddress = s.partAddress := by
  refine ⟨_, rfl, ?_⟩
  split
  · exact ⟨rfl, rfl⟩
  · split <;> simp

/-- Each command is one of these. -/
theorem exec_clockStep (c : Instr) (s t : State) (h : exec c s = .next t) : ClockStep s c t := by
  have held (u : State) (e : exec c s = .next u) (k : s.holdsClock u) : ClockStep s c t := by
    obtain rfl := Host.Outcome.next.inj (e.symm.trans h)
    exact .held _ _ k
  have kept (u : State) (e : exec c s = .next u) (k : u.time = s.time ∧ u.partAddress = s.partAddress) :
      ClockStep s c t := held u e (State.holdsClock_of_same k)
  cases c with
  | powerOn straps =>
    obtain rfl := Host.Outcome.next.inj ((exec_powerOn straps s).symm.trans h)
    exact .powerOn straps _ rfl
  | pulseArrival tc =>
    obtain rfl := Host.Outcome.next.inj ((exec_pulseArrival s tc).symm.trans h)
    exact .pulse tc _ (s.withTime_partAddress _) (s.withTime_time _)
  | pulseSupervisionExpiry =>
    by_cases running : s.time.source = .reference ∧ s.time.supervision = true
    · obtain rfl := Host.Outcome.next.inj ((exec_pulseSupervisionExpiry s running.1 running.2).symm.trans h)
      exact .supervision _ (s.withTime_partAddress _) (s.withTime_time _)
    · exact kept s (congrArg _ (if_neg running)) ⟨rfl, rfl⟩
  | internalGeneratorExpiry =>
    by_cases running : s.time.source = .internal ∧ s.time.generator = true
    · obtain rfl := Host.Outcome.next.inj ((exec_internalGeneratorExpiry s running.1 running.2).symm.trans h)
      exact .generator _ (s.withTime_partAddress _) running.1 (s.withTime_time _)
    · exact kept s (congrArg _ (if_neg running)) ⟨rfl, rfl⟩
  | sameFrameWindowClose =>
    cases h
    exact .windowClose _ rfl rfl
  | flushTimerExpiry l => exact kept _ rfl (by simp)
  | correctionWindowExpiry l => exact kept _ rfl (by split <;> simp)
  | cueScheduleDue => exact kept _ (exec_cueScheduleDue s) (foldl_clock _ (fun s e => s.executeCue_clock e.cue) _ _)
  | automationSupervisionExpiry =>
    obtain ⟨u, e, k⟩ := exec_automationSupervisionExpiry_clock s
    exact kept u e k
  | word w p | speaker w p | delete w p | writerTake w p | query w p | breakMark w p
  | writerFrameRefused w kind p | inserterRequest l p | inserterFrameRefused l kind p =>
    exact kept _ rfl (by simp)
  | commitCompletion => exact kept _ rfl s.completeCommit_clock
  | compareCompletion => exact kept _ rfl s.completeCompare_clock
  | prepareCompletion => exact kept _ rfl s.completePrepare_clock
  | transmitFrame k => exact kept _ rfl (s.transmit_clock k)
  | configureLane p | configureWriter p | setStyle p | setStyleLimit p | setFrameRate p | setSupervision p
  | assign p | handover p | start p | stop p | loadBuffer p | commit p | compare p | defineSegment p
  | deleteSegment p | prepare p | storeReset p | cancelCue p | release p | poll p | status p | clearCounters p
  | engineReset p =>
    exact held _ rfl (requestRow_holdsClock _ p _ s rfl)
  | automationFrameRefused kind p =>
    exact held _ rfl (State.holdsClock_trans (s.frameClosed_holdsClock .automation)
      (State.automationFrame_holdsClock _ kind p))
  | freeze b rest | thaw b rest | hold b rest | resume b rest | stepCue b rest | clear b rest | join b rest
  | split b rest | takeCue b rest | advance b rest | endCue b rest =>
    exact held _ rfl (cueRow_holdsClock _ b rest s)
  | abort k line | checkError k line | sizeError k line | frameIgnored k line =>
    exact held _ rfl (s.receive_holdsClock k line)
  | flagArrival k => exact held _ rfl (s.receive_holdsClock k _)

/-! ## The station count (O4) -/

theorem TimeBase.evaluate_sfc (t : TimeBase) (word : Option Nat) : (t.evaluate word).1.sfc = t.sfc := by
  unfold TimeBase.evaluate TimeBase.miss
  split
  · rfl
  · rfl
  · split <;> rfl
  · rfl
  · split
    · rfl
    · dsimp only; split <;> rfl

/-- A frame event raises SFC by one (R1). -/
theorem TimeBase.frameEvent_sfc (t : TimeBase) (word : Option Nat) (below : t.sfc + 1 < 2 ^ 48) :
    (t.frameEvent word).1.sfc = t.sfc + 1 := by
  rw [TimeBase.frameEvent, TimeBase.evaluate_sfc, TimeBase.advance_of_below t below]

/-- A pulse is a frame event, or the same frame as one (R4, R6). -/
theorem TimeBase.pulse_sfc (t : TimeBase) (tc : Option TimecodeWord) (below : t.sfc + 1 < 2 ^ 48) :
    (t.pulse tc).1.sfc = t.sfc ∨ (t.pulse tc).1.sfc = t.sfc + 1 := by
  cases source : t.source with
  | reference => rw [t.pulse_of_reference tc source]; exact .inr (t.frameEvent_sfc _ below)
  | internal =>
    cases window : t.window with
    | true =>
      rw [t.pulse_of_window tc source window]
      left
      unfold TimeBase.evaluateSameFrame
      split
      · rfl
      · dsimp only; split <;> rfl
      · rfl
    | false => rw [t.pulse_of_internal tc source window]; exact .inr (t.frameEvent_sfc _ below)

/-- Settles O4, from what each command can do to the clock. -/
theorem addressAndStationCount : Obligations.AddressAndStationCount := by
  unfold Obligations.AddressAndStationCount
  intro c s t notPowerOn below h
  cases exec_clockStep c s t h with
  | powerOn straps _ => exact absurd rfl (notPowerOn straps)
  | pulse tc _ address time =>
    refine ⟨address, ?_⟩
    rw [time]
    exact (s.time.pulse_sfc tc below).imp_right fun up => ⟨up, .inr (.inr ⟨tc, rfl⟩)⟩
  | supervision _ address time =>
    rw [time]
    exact ⟨address, .inr ⟨s.time.frameEvent_sfc none below, .inr (.inl rfl)⟩⟩
  | generator _ address _ time =>
    rw [time]
    exact ⟨address, .inr ⟨s.time.frameEvent_sfc none below, .inl rfl⟩⟩
  | windowClose _ address time => rw [time]; exact ⟨address, .inl rfl⟩
  | held _ _ held =>
    obtain ⟨address, time | ⟨r, time⟩⟩ := held
    · exact ⟨address, .inl (by rw [time])⟩
    · exact ⟨address, .inl (by rw [time]; rfl)⟩

/-! ## The law of the time base (O9) -/

/-- The part of the law that speaks of the counts, the candidate and the lock. -/
def TimeBase.countsLawful (t : TimeBase) : Prop :=
  t.sfc < 2 ^ 48 ∧ t.fod < t.rate.day ∧ (∀ c, t.candidate = some c → c < t.rate.day) ∧ t.misses ≤ 3
    ∧ (t.misses ≠ 0 → t.lock = .locked) ∧ (t.lock = .verify ↔ t.candidate.isSome = true)

/-- The part of the law that speaks of the source and the timers (R4 to R6). -/
def TimeBase.timersLawful (t : TimeBase) : Prop :=
  match t.source with
  | .reference => t.supervision = true ∧ t.generator = false ∧ t.window = false
  | .internal => t.supervision = false ∧ t.generator = true

theorem TimeBase.lawful_iff (t : TimeBase) : t.lawful ↔ t.countsLawful ∧ t.timersLawful :=
  ⟨fun ⟨sfc, fod, cand, misses, counting, verify, timers⟩ => ⟨⟨sfc, fod, cand, misses, counting, verify⟩, timers⟩,
    fun ⟨⟨sfc, fod, cand, misses, counting, verify⟩, timers⟩ => ⟨sfc, fod, cand, misses, counting, verify, timers⟩⟩

theorem Rate.day_pos (r : Rate) : 0 < r.day := by cases r <;> decide

/-- SFC stays a 48-bit count, past its limit too (R1, log entry 1). -/
theorem nextSfc_lt (sfc : Nat) : nextSfc sfc < 2 ^ 48 := by
  unfold nextSfc
  split
  · next below => exact below
  · exact Config.sfcPastLimit.isLt

theorem TimeBase.advance_countsLawful {t : TimeBase} (h : t.countsLawful) : t.advance.countsLawful := by
  obtain ⟨_, _, cand, misses, counting, verify⟩ := h
  exact ⟨nextSfc_lt _, Nat.mod_lt _ t.rate.day_pos, cand, misses, counting, verify⟩

/-- The value of a valid timecode word is a frame of the day (R7). -/
theorem timecodeFrames_lt (w : TimecodeWord) (r : Rate) (v : Nat) (h : timecodeFrames w r = some v) : v < r.day := by
  unfold timecodeFrames at h
  split at h
  · next hh mm ss ff _ _ _ _ =>
    split at h
    · next valid =>
      obtain rfl := Option.some.inj h
      obtain ⟨hours, minutes, seconds, frames⟩ := valid
      have clock : (hh * 60 + mm) * 60 + ss < 86400 := by omega
      calc ((hh * 60 + mm) * 60 + ss) * r.hz + ff < ((hh * 60 + mm) * 60 + ss) * r.hz + r.hz := by omega
        _ = ((hh * 60 + mm) * 60 + ss + 1) * r.hz := (Nat.succ_mul _ _).symm
        _ ≤ 86400 * r.hz := Nat.mul_le_mul_right _ clock
    · cases h
  · cases h

theorem TimeBase.wordValue_lt (t : TimeBase) (tc : Option TimecodeWord) :
    ∀ w, t.wordValue tc = some w → w < t.rate.day := by
  intro w h
  obtain ⟨x, -, hx⟩ := Option.bind_eq_some_iff.mp h
  exact timecodeFrames_lt x t.rate w hx

/-- The lock machine keeps the law of the counts, whatever valid word the frame has (R8 to R10). -/
theorem TimeBase.evaluate_countsLawful {t : TimeBase} (h : t.countsLawful) (word : Option Nat)
    (valid : ∀ w, word = some w → w < t.rate.day) : (t.evaluate word).1.countsLawful := by
  obtain ⟨sfc, fod, cand, misses, counting, verify⟩ := h
  cases lock : t.lock with
  | search =>
    have none_missed : t.misses = 0 := by by_contra missed; simp [counting missed] at lock
    rw [t.evaluate_of_search word lock]
    exact ⟨sfc, fod, valid, misses, fun missed => absurd none_missed missed, by cases word <;> simp⟩
  | verify =>
    have none_missed : t.misses = 0 := by by_contra missed; simp [counting missed] at lock
    obtain ⟨c, hc⟩ := Option.isSome_iff_exists.mp (verify.mp lock)
    cases word with
    | none =>
      rw [t.evaluate_of_verify_none lock]
      exact ⟨sfc, fod, nofun, misses, fun missed => absurd none_missed missed, by simp⟩
    | some w =>
      by_cases confirms : w = (c + 1) % t.rate.day
      · subst confirms
        rw [t.evaluate_of_confirmed c lock hc]
        exact ⟨sfc, Nat.mod_lt _ t.rate.day_pos, nofun, Nat.zero_le _, fun _ => rfl, by simp⟩
      · rw [t.evaluate_of_replaced c w lock hc confirms]
        exact ⟨sfc, fod, valid, misses, fun missed => absurd none_missed missed, by simp [lock]⟩
  | locked =>
    have no_candidate : t.candidate = none := by simpa [lock] using verify
    rw [t.evaluate_of_locked word lock]
    split
    · exact ⟨sfc, fod, cand, Nat.zero_le _, fun _ => lock, verify⟩
    · split
      · exact ⟨sfc, fod, cand, by dsimp only; omega, fun _ => lock, verify⟩
      · exact ⟨sfc, fod, cand, Nat.zero_le _, fun missed => absurd rfl missed, by simp [no_candidate]⟩

/-- The same-frame word keeps the law of the counts too (R11). -/
theorem TimeBase.evaluateSameFrame_countsLawful {t : TimeBase} (h : t.countsLawful) (word : Option Nat)
    (valid : ∀ w, word = some w → w < t.rate.day) : (t.evaluateSameFrame word).countsLawful := by
  obtain ⟨sfc, fod, cand, misses, counting, verify⟩ := h
  unfold TimeBase.evaluateSameFrame
  split
  · next lock =>
    have none_missed : t.misses = 0 := by by_contra missed; simp [counting missed] at lock
    exact ⟨sfc, fod, valid, misses, fun missed => absurd none_missed missed, by simp⟩
  · next lock =>
    split
    · exact ⟨sfc, fod, cand, Nat.zero_le _, fun _ => lock, verify⟩
    · exact ⟨sfc, fod, cand, misses, counting, verify⟩
  · exact ⟨sfc, fod, cand, misses, counting, verify⟩

/-- A frame event keeps the law of the counts (R1 to R3). -/
theorem TimeBase.frameEvent_countsLawful {t : TimeBase} (h : t.countsLawful) (word : Option Nat)
    (valid : ∀ w, word = some w → w < t.rate.day) : (t.frameEvent word).1.countsLawful :=
  TimeBase.evaluate_countsLawful (TimeBase.advance_countsLawful h) word valid

/-- The lock machine leaves the source and the timers alone. -/
theorem TimeBase.frameEvent_timers (t : TimeBase) (word : Option Nat) :
    (t.frameEvent word).1.source = t.source ∧ (t.frameEvent word).1.supervision = t.supervision
      ∧ (t.frameEvent word).1.generator = t.generator ∧ (t.frameEvent word).1.window = t.window := by
  unfold TimeBase.frameEvent TimeBase.evaluate TimeBase.miss
  split
  · exact ⟨rfl, rfl, rfl, rfl⟩
  · exact ⟨rfl, rfl, rfl, rfl⟩
  · split <;> exact ⟨rfl, rfl, rfl, rfl⟩
  · exact ⟨rfl, rfl, rfl, rfl⟩
  · split
    · exact ⟨rfl, rfl, rfl, rfl⟩
    · dsimp only; split <;> exact ⟨rfl, rfl, rfl, rfl⟩

/-- A pulse keeps the law (R4, R6). -/
theorem TimeBase.pulse_lawful {t : TimeBase} (h : t.lawful) (tc : Option TimecodeWord) : (t.pulse tc).1.lawful := by
  rw [TimeBase.lawful_iff] at h ⊢
  obtain ⟨counts, timers⟩ := h
  obtain ⟨source', _, generator', window'⟩ := t.frameEvent_timers (t.wordValue tc)
  have event := TimeBase.frameEvent_countsLawful counts _ (t.wordValue_lt tc)
  have same := TimeBase.evaluateSameFrame_countsLawful counts _ (t.wordValue_lt tc)
  cases source : t.source with
  | reference =>
    simp only [TimeBase.timersLawful, source] at timers
    obtain ⟨_, generator, window⟩ := timers
    rw [t.pulse_of_reference tc source]
    refine ⟨event, ?_⟩
    have still : ((t.advance.evaluate (t.wordValue tc)).1).source = .reference := source'.trans source
    simp only [TimeBase.timersLawful, still]
    exact ⟨trivial, generator'.trans generator, window'.trans window⟩
  | internal =>
    cases window : t.window with
    | true =>
      rw [t.pulse_of_window tc source window]
      exact ⟨same, rfl, rfl, rfl⟩
    | false =>
      rw [t.pulse_of_internal tc source window]
      exact ⟨event, rfl, rfl, window'.trans window⟩

/-- An expiry of pulse supervision keeps the law (R4). -/
theorem TimeBase.supervisionExpiry_lawful {t : TimeBase} (h : t.lawful) : t.supervisionExpiry.1.lawful := by
  rw [TimeBase.lawful_iff] at h ⊢
  exact ⟨TimeBase.frameEvent_countsLawful h.1 none nofun, rfl, rfl⟩

/-- An expiry of the internal generator keeps the law (R5). -/
theorem TimeBase.generatorExpiry_lawful {t : TimeBase} (h : t.lawful) (source : t.source = .internal) :
    t.generatorExpiry.1.lawful := by
  rw [TimeBase.lawful_iff] at h ⊢
  obtain ⟨counts, timers⟩ := h
  obtain ⟨source', supervision', -, -⟩ := t.frameEvent_timers none
  simp only [TimeBase.timersLawful, source] at timers
  refine ⟨TimeBase.frameEvent_countsLawful counts none nofun, ?_⟩
  have still : t.generatorExpiry.1.source = .internal := source'.trans source
  simp only [TimeBase.timersLawful, still]
  exact ⟨supervision'.trans timers.1, rfl⟩

/-- The close of the window keeps the law (R6). -/
theorem TimeBase.windowClosed_lawful {t : TimeBase} (h : t.lawful) : { t with window := false }.lawful := by
  rw [TimeBase.lawful_iff] at h ⊢
  obtain ⟨counts, timers⟩ := h
  refine ⟨counts, ?_⟩
  cases source : t.source <;> simp_all [TimeBase.timersLawful]

/-- A new frame rate keeps the law (R14). -/
theorem TimeBase.withRate_lawful {t : TimeBase} (h : t.lawful) (r : Rate) : (t.withRate r).lawful := by
  rw [TimeBase.lawful_iff] at h ⊢
  exact ⟨⟨h.1.1, r.day_pos, nofun, Nat.zero_le _, fun missed => absurd rfl missed, by simp [TimeBase.withRate]⟩, h.2⟩

/-- Every command keeps the law of the time base. -/
theorem exec_timeBase_lawful (c : Instr) (s t : State) (h : s.time.lawful) (e : exec c s = .next t) :
    t.time.lawful := by
  cases exec_clockStep c s t e with
  | powerOn _ _ time => rw [time]; exact TimeBase.powerOn_lawful
  | pulse tc _ _ time => rw [time]; exact TimeBase.pulse_lawful h tc
  | supervision _ _ time => rw [time]; exact TimeBase.supervisionExpiry_lawful h
  | generator _ _ source time => rw [time]; exact TimeBase.generatorExpiry_lawful h source
  | windowClose _ _ time => rw [time]; exact TimeBase.windowClosed_lawful h
  | held _ _ held =>
    obtain ⟨_, time | ⟨r, time⟩⟩ := held
    · rw [time]; exact h
    · rw [time]; exact TimeBase.withRate_lawful h r

/-- Settles O9: an empty queue idles, and every command keeps the law. -/
theorem timeBaseStaysLawful : Obligations.TimeBaseStaysLawful := by
  unfold Obligations.TimeBaseStaysLawful
  intro s t h e
  unfold step at e
  split at e
  · obtain rfl := Host.Outcome.next.inj e; exact h
  · next c rest _ => exact exec_timeBase_lawful c { s with pending := rest } t h e

end Sys2Proof.Machine
end

section
/-! PROOF. The cue schedule (O53): how a CUE frame is read, scheduled or refused, and that a cue acts alike whatever
stands on the links, the schedule and the supervision timer. -/

namespace Sys2Proof.Machine

/-! ## A cue and what it does not touch -/

/-- The part with another cue schedule, other links and another supervision timer: the fields that no cue reads or
writes. -/
def State.around (s : State) (es : List ScheduledCue) (k : Links) (x : Option Nat) : State :=
  { s with schedule := es, links := k, supervisionExpiry := x }

section Around

variable (s : State) (es : List ScheduledCue) (k : Links) (x : Option Nat)

theorem State.queueReport_around (r : Report) :
    (s.around es k x).queueReport r = (s.queueReport r).around es k x := by
  by_cases room : s.reports.length < 32
  · rw [State.queueReport_of_room s r room, State.queueReport_of_room _ r (by exact room)]; rfl
  · rw [State.queueReport_of_full s r room, State.queueReport_of_full _ r (by exact room)]; rfl

theorem State.queueReports_around (rs : List Report) :
    (s.around es k x).queueReports rs = (s.queueReports rs).around es k x := by
  induction rs generalizing s with
  | nil => rfl
  | cons r rs ih => rw [State.queueReports_cons, State.queueReport_around, ih, State.queueReports_cons]

theorem State.onLane_around (l : LaneId) (act : LaneEnv → LaneRun → LaneRun) :
    (s.around es k x).onLane l act = (s.onLane l act).around es k x :=
  State.queueReports_around (s.setLane l (act (s.env l) { lane := s.lane l, out := [] }).lane) es k x _

theorem State.join_around : (s.around es k x).join = s.join.around es k x := by
  unfold State.join
  rw [State.onLane_around]
  cases following : s.following <;> simp only [State.around, following] <;> rfl

theorem State.split_around : (s.around es k x).split = s.split.around es k x :=
  State.onLane_around { s with following := false } es k x .lane1 laneSplit

theorem State.cueOnLane_around (c : Cue) (l : LaneId) :
    (s.around es k x).cueOnLane c l = (s.cueOnLane c l).around es k x := by
  have running : (s.around es k x).running l = s.running l := rfl
  have follows : (s.around es k x).follows l = s.follows l := by cases l <;> rfl
  unfold State.cueOnLane
  split
  · exact s.join_around es k x
  · exact s.split_around es k x
  · rw [running, follows, State.onLane_around]
    split <;> rfl

theorem State.cueIfAddressed_around (c : Cue) (l : LaneId) :
    (s.around es k x).cueIfAddressed c l = (s.cueIfAddressed c l).around es k x := by
  have addressed : (s.around es k x).addressed c.mask l = s.addressed c.mask l := rfl
  unfold State.cueIfAddressed
  rw [addressed, State.cueOnLane_around]
  split <;> rfl

/-- A cue acts alike whatever stands on the links, the schedule and the supervision timer, and leaves them alone
(R120). -/
theorem State.executeCue_around (c : Cue) :
    (s.around es k x).executeCue c = (s.executeCue c).around es k x := by
  simp only [State.executeCue, State.cueIfAddressed_around]

end Around

/-- A cue leaves the cue schedule alone. -/
@[simp] theorem State.executeCue_schedule (s : State) (c : Cue) : (s.executeCue c).schedule = s.schedule := by
  have same : s.executeCue c = (s.executeCue c).around s.schedule s.links s.supervisionExpiry :=
    s.executeCue_around s.schedule s.links s.supervisionExpiry c
  rw [same]; rfl

/-! ## Reading a CUE frame (R118) -/

/-- A kind byte that names a cue. -/
theorem cueKindOf_code (kind : CueKind) (p : List Byte) :
    cueKindOf (byteAt (BitVec.ofNat 8 kind.code :: p) 0) = some kind := by
  cases kind <;> rfl

/-- What a CUE frame of a kind says, by its target-present byte (R118, R182). -/
theorem readCue_eq (day : Nat) (kind : CueKind) (mask tag segment present a b c : Byte) :
    readCue day (BitVec.ofNat 8 kind.code :: [mask, tag, segment, present, a, b, c])
      = if kind = .take ∧ 63 < segment.toNat then none
        else if present.toNat = 0 then some (immediate kind mask tag segment, none)
        else if present.toNat = 1 ∧ targetOf a b c < day then
          some (immediate kind mask tag segment, some (targetOf a b c))
        else none := by
  unfold readCue
  rw [cueKindOf_code]
  rfl

/-- A kind byte that names no cue. -/
theorem cueKindOf_of_unnamed (n : Nat) (h : n = 0 ∨ 11 < n) : cueKindOf n = none := by
  obtain rfl | above := h
  · rfl
  · unfold cueKindOf
    split
    iterate 11 exact absurd above (by decide)
    rfl

/-! ## Taking a CUE frame -/

/-- The part after a CUE frame was taken, with its reply where it is addressed (R118). -/
def cueTaken (broadcast : Bool) (x : State × Reply) : State := if broadcast then x.1 else x.1.answer cueFrameKind x.2

/-- A CUE frame is counted, restarts supervision and is taken; only an addressed one needs room for a reply (R180). -/
theorem State.cueFrame_eq (s : State) (broadcast : Bool) (p : List Byte) (room : broadcast = true ∨ s.canAnswer) :
    (s.frameClosed .automation).cueFrame broadcast p = cueTaken broadcast (takeCueFrame p s.heard) := by
  simp only [State.cueFrame, State.automationGood_frameClosed, cueTaken]
  cases broadcast with
  | true => rfl
  | false =>
    have answers : s.canAnswer := room.resolve_left Bool.false_ne_true
    have full : ¬ 4 ≤ s.links.automation.waiting.length := Nat.not_le.mpr answers
    simp [State.serve, State.repliesFull_heard, full]

/-- Each cue row takes a CUE frame of its kind (log entry 24). -/
theorem exec_cueTable (e : Byte × CueKind × (Bool → List Byte → Instr)) (mem : e ∈ cueTable) (broadcast : Bool)
    (rest : List Byte) (s : State) : exec (e.2.2 broadcast rest) s = .next (cueRow e.2.1 broadcast rest s) := by
  simp only [cueTable, List.mem_cons, List.not_mem_nil, or_false] at mem
  rcases mem with rfl | rfl | rfl | rfl | rfl | rfl | rfl | rfl | rfl | rfl | rfl <;> rfl

theorem exec_cueTable_of_room (e : Byte × CueKind × (Bool → List Byte → Instr)) (mem : e ∈ cueTable) (broadcast : Bool)
    (rest : List Byte) (s : State) (room : broadcast = true ∨ s.canAnswer) :
    exec (e.2.2 broadcast rest) s
      = .next (cueTaken broadcast (takeCueFrame (BitVec.ofNat 8 e.2.1.code :: rest) s.heard)) := by
  rw [exec_cueTable e mem, cueRow, State.cueFrame_eq s broadcast _ room]

theorem takeCueFrame_of_read (p : List Byte) (s : State) (c : Cue) (target : Option Nat) (len : p.length = 8)
    (read : readCue s.time.rate.day p = some (c, target)) : takeCueFrame p s = s.acceptCue p c target := by
  simp only [takeCueFrame, len, ne_eq, not_true_eq_false, if_false, read]

theorem takeCueFrame_of_unread (p : List Byte) (s : State) (len : p.length = 8)
    (read : readCue s.time.rate.day p = none) :
    takeCueFrame p s = (s.refuseCueArrival .badField p, .refused .badField) := by
  simp only [takeCueFrame, len, ne_eq, not_true_eq_false, if_false, read]

theorem takeCueFrame_of_length (p : List Byte) (s : State) (len : p.length ≠ 8) :
    takeCueFrame p s = (s.refuseCueArrival .badLength p, .refused .badLength) := if_pos len

/-- A cue refused at its arrival queues its report and, where it is addressed, is answered with REFUSED (R118). -/
theorem cueTaken_refused (s : State) (broadcast : Bool) (r : Reason) (p : List Byte) (room : s.canReport) :
    cueTaken broadcast (s.heard.refuseCueArrival r p, .refused r)
      = s.cueRefused broadcast r (BitVec.ofNat 8 r.code) (if 3 ≤ p.length then some (byteAt p 2) else none) := by
  unfold State.refuseCueArrival State.report
  rw [State.queueReport_of_room _ _ (by exact room)]
  cases broadcast <;> rfl

/-! ## Targets (R13, R118, R119) -/

/-- R13: how far ahead of FOD a target lies decides whether it is due, ahead or late. -/
theorem TimeBase.convert_eq (t : TimeBase) (target : Nat) :
    t.convert target
      = if t.ahead target = 0 then .due
        else if t.ahead target ≤ t.rate.day / 2 then .ahead (t.sfc + t.ahead target)
        else .late (t.rate.day - t.ahead target) := rfl

/-- A cue whose target is at hand is carried out as one without a target (R118). -/
theorem State.acceptCue_of_due (s : State) (p q : List Byte) (c : Cue) (target : Nat) (h : s.time.ahead target = 0) :
    s.acceptCue p c (some target) = s.acceptCue q c none := by
  simp only [State.acceptCue, TimeBase.convert_eq, h, if_true]

/-- A cue whose target is behind is carried out after LATE_CUE (R118). -/
theorem State.acceptCue_of_late (s : State) (p q : List Byte) (c : Cue) (target : Nat)
    (h : s.time.rate.day / 2 < s.time.ahead target) (room : s.canReport) :
    s.acceptCue p c (some target)
      = State.acceptCue { s with reports := s.reports
          ++ [s.note .lateCue none none (some (s.time.rate.day - s.time.ahead target))] } q c none := by
  have notDue : s.time.ahead target ≠ 0 := by omega
  have notAhead : ¬ s.time.ahead target ≤ s.time.rate.day / 2 := by omega
  simp only [State.acceptCue, TimeBase.convert_eq, notDue, notAhead, if_false, State.report]
  rw [State.queueReport_of_room s _ room]
  rfl

/-- A cue whose target is ahead is scheduled while the schedule has room, and refused with CUE_FULL when it has none. -/
theorem State.acceptCue_of_ahead (s : State) (p : List Byte) (c : Cue) (target : Nat) (h : 0 < s.time.ahead target)
    (near : s.time.ahead target ≤ s.time.rate.day / 2) :
    s.acceptCue p c (some target)
      = if 32 ≤ s.schedule.length then (s.refuseCueArrival .cueFull p, .refused .cueFull)
        else ({ s with schedule := insertCue s.schedule { cue := c, target := s.time.sfc + s.time.ahead target } },
          .ack (some (s.time.sfc + s.time.ahead target))) := by
  have ahead : s.time.convert target = .ahead (s.time.sfc + s.time.ahead target) := by
    rw [TimeBase.convert_eq, if_neg (by omega), if_pos near]
  simp only [State.acceptCue, ahead]
  rfl

/-- R119: a new entry stands behind every entry due no later, and before the first that is due later. -/
theorem insertCue_eq (es : List ScheduledCue) (c : ScheduledCue) :
    insertCue es c = es.takeWhile (fun e => decide (e.target ≤ c.target))
      ++ c :: es.dropWhile (fun e => decide (e.target ≤ c.target)) := by
  induction es with
  | nil => rfl
  | cons e es ih => by_cases h : e.target ≤ c.target <;> simp [insertCue, h, ih]

/-! ## Entries that are due (R119) -/

/-- Nothing happens while the head of the schedule is ahead. -/
theorem exec_cueScheduleDue_of_ahead (s : State) (h : ∀ e ∈ s.schedule.head?, s.time.sfc < e.target) :
    exec .cueScheduleDue s = .next s := by
  have none_due : dueCues s.time.sfc s.schedule = ([], s.schedule) := by
    cases hs : s.schedule with
    | nil => rfl
    | cons e es => simp [dueCues, Nat.not_le.mpr (h e (by simp [hs]))]
  rw [exec_cueScheduleDue, none_due]
  rfl

/-- The head of the schedule, when it is due, is carried out before the rest. -/
theorem exec_cueScheduleDue_of_due (s : State) (x : ScheduledCue) (rest : List ScheduledCue)
    (hs : s.schedule = x :: rest) (due : x.target ≤ s.time.sfc) :
    exec .cueScheduleDue s
      = exec .cueScheduleDue ((s.around rest s.links s.supervisionExpiry).executeCue x.cue) := by
  have split : dueCues s.time.sfc s.schedule
      = (x :: (dueCues s.time.sfc rest).1, (dueCues s.time.sfc rest).2) := by
    simp [dueCues, hs, due]
  have time : ((s.around rest s.links s.supervisionExpiry).executeCue x.cue).time.sfc = s.time.sfc := by
    rw [(State.executeCue_clock _ _).1]; rfl
  have left : ((s.around rest s.links s.supervisionExpiry).executeCue x.cue).schedule = rest :=
    State.executeCue_schedule _ _
  have first (es : List ScheduledCue) : ({ s with schedule := es } : State).executeCue x.cue
      = { (s.around rest s.links s.supervisionExpiry).executeCue x.cue with schedule := es } :=
    (s.executeCue_around es s.links s.supervisionExpiry x.cue).trans
      (congrArg (fun t : State => { t with schedule := es })
        (s.executeCue_around rest s.links s.supervisionExpiry x.cue)).symm
  rw [exec_cueScheduleDue, exec_cueScheduleDue, split, time, left, List.foldl_cons, first]

/-! ## The cue rows -/

section Rows

variable {e : Byte × CueKind × (Bool → List Byte → Instr)} (mem : e ∈ cueTable) (s : State) (broadcast : Bool)
  (mask tag segment a b c : Byte) (room : broadcast = true ∨ s.canAnswer)

include mem room

/-- A cue without a target is carried out at its arrival (R118). -/
theorem exec_cue_immediate (good : e.2.1 = .take → segment.toNat ≤ 63) :
    exec (e.2.2 broadcast (immediateCue mask tag segment a b c)) s
      = .next (cueTaken broadcast (s.heard.executeCue (immediate e.2.1 mask tag segment), .ack none)) := by
  rw [exec_cueTable_of_room e mem broadcast _ s room, takeCueFrame_of_read _ _ _ _ rfl
    (readCue_immediate _ e.2.1 mask tag segment a b c (imp_iff_not_or.mp good))]
  rfl

/-- A cue with a target whose fields are good is accepted with it (R118). -/
theorem exec_cue_targeted (good : e.2.1 = .take → segment.toNat ≤ 63) (below : targetOf a b c < s.time.rate.day) :
    exec (e.2.2 broadcast [mask, tag, segment, 1, a, b, c]) s
      = .next (cueTaken broadcast (s.heard.acceptCue
          (BitVec.ofNat 8 e.2.1.code :: [mask, tag, segment, 1, a, b, c]) (immediate e.2.1 mask tag segment)
          (some (targetOf a b c)))) := by
  have read := readCue_eq s.heard.time.rate.day e.2.1 mask tag segment 1 a b c
  rw [if_neg (fun h => absurd h.2 (Nat.not_lt.mpr (good h.1))), if_neg (by decide), if_pos ⟨rfl, below⟩] at read
  rw [exec_cueTable_of_room e mem broadcast _ s room, takeCueFrame_of_read _ _ _ _ rfl read]

theorem exec_cue_due (good : e.2.1 = .take → segment.toNat ≤ 63) (below : targetOf a b c < s.time.rate.day)
    (due : s.time.ahead (targetOf a b c) = 0) :
    exec (e.2.2 broadcast [mask, tag, segment, 1, a, b, c]) s
      = exec (e.2.2 broadcast (immediateCue mask tag segment a b c)) s := by
  rw [exec_cue_targeted mem s broadcast mask tag segment a b c room good below,
    exec_cue_immediate mem s broadcast mask tag segment a b c room good, State.acceptCue_of_due s.heard _ [] _ _ due]
  rfl

theorem exec_cue_late (good : e.2.1 = .take → segment.toNat ≤ 63) (below : targetOf a b c < s.time.rate.day)
    (late : s.time.rate.day / 2 < s.time.ahead (targetOf a b c)) (report : s.canReport) :
    exec (e.2.2 broadcast [mask, tag, segment, 1, a, b, c]) s
      = exec (e.2.2 broadcast (immediateCue mask tag segment a b c))
        { s with reports := s.reports
            ++ [s.note .lateCue none none (some (s.time.rate.day - s.time.ahead (targetOf a b c)))] } := by
  refine (exec_cue_targeted mem s broadcast mask tag segment a b c room good below).trans
    (Eq.trans ?_ (exec_cue_immediate mem _ broadcast mask tag segment a b c (by exact room) good).symm)
  rw [State.acceptCue_of_late s.heard _ [] _ _ late report]
  rfl

theorem exec_cue_scheduled (good : e.2.1 = .take → segment.toNat ≤ 63) (below : targetOf a b c < s.time.rate.day)
    (ahead : 0 < s.time.ahead (targetOf a b c)) (near : s.time.ahead (targetOf a b c) ≤ s.time.rate.day / 2)
    (free : s.schedule.length < 32) :
    exec (e.2.2 broadcast [mask, tag, segment, 1, a, b, c]) s = .next
      { (if broadcast then s.heard
         else s.answered (ackOf 0x40 (some (s.time.sfc + s.time.ahead (targetOf a b c))))) with
        schedule := insertCue s.schedule
          { cue := immediate e.2.1 mask tag segment, target := s.time.sfc + s.time.ahead (targetOf a b c) } } := by
  rw [exec_cue_targeted mem s broadcast mask tag segment a b c room good below,
    State.acceptCue_of_ahead s.heard _ _ _ ahead near, if_neg (by exact Nat.not_le.mpr free)]
  cases broadcast <;> rfl

theorem exec_cue_full (good : e.2.1 = .take → segment.toNat ≤ 63) (below : targetOf a b c < s.time.rate.day)
    (ahead : 0 < s.time.ahead (targetOf a b c)) (near : s.time.ahead (targetOf a b c) ≤ s.time.rate.day / 2)
    (full : 32 ≤ s.schedule.length) (report : s.canReport) :
    exec (e.2.2 broadcast [mask, tag, segment, 1, a, b, c]) s
      = .next (s.cueRefused broadcast .cueFull 18 (some tag.toNat)) := by
  rw [exec_cue_targeted mem s broadcast mask tag segment a b c room good below,
    State.acceptCue_of_ahead s.heard _ _ _ ahead near, if_pos (by exact full), cueTaken_refused s broadcast _ _ report]
  rfl

theorem exec_cue_badField (present : Byte) (report : s.canReport)
    (bad : 1 < present.toNat ∨ (present = 1 ∧ s.time.rate.day ≤ targetOf a b c)
      ∨ (e.2.1 = .take ∧ 63 < segment.toNat)) :
    exec (e.2.2 broadcast [mask, tag, segment, present, a, b, c]) s
      = .next (s.cueRefused broadcast .badField 3 (some tag.toNat)) := by
  have read : readCue s.heard.time.rate.day (BitVec.ofNat 8 e.2.1.code :: [mask, tag, segment, present, a, b, c])
      = none := by
    rw [readCue_eq]
    split_ifs with take absent target
    · rfl
    · obtain h | ⟨rfl, -⟩ | h := bad
      · omega
      · exact absurd absent (by decide)
      · exact absurd h take
    · obtain h | ⟨-, h⟩ | h := bad
      · omega
      · exact absurd target.2 (Nat.not_lt.mpr h)
      · exact absurd h take
    · rfl
  rw [exec_cueTable_of_room e mem broadcast _ s room, takeCueFrame_of_unread _ _ rfl read,
    cueTaken_refused s broadcast _ _ report]
  rfl

theorem exec_cue_badLength (rest : List Byte) (report : s.canReport) (len : rest.length ≠ 7) :
    exec (e.2.2 broadcast rest) s
      = .next (s.cueRefused broadcast .badLength 2
          (if 2 ≤ rest.length then rest[1]?.map BitVec.toNat else none)) := by
  have bad : (BitVec.ofNat 8 e.2.1.code :: rest).length ≠ 8 := by simpa using len
  rw [exec_cueTable_of_room e mem broadcast _ s room, takeCueFrame_of_length _ _ bad,
    cueTaken_refused s broadcast _ _ report]
  rcases rest with _ | ⟨mask, _ | ⟨tag, rest⟩⟩
  · rfl
  · rfl
  · have long (n : Nat) : 2 ≤ n + 1 + 1 := by omega
    simp only [List.length_cons, if_pos (long _), if_pos (Nat.succ_le_succ (long _))]
    rfl

end Rows

/-- A broadcast cue without a target does what its cue does, and is counted and restarts supervision besides (R118,
R134). -/
theorem exec_cue_aside {e : Byte × CueKind × (Bool → List Byte → Instr)} (mem : e ∈ cueTable) (s : State)
    (mask tag segment : Byte) (good : e.2.1 = .take → segment.toNat ≤ 63) :
    ∃ t, exec (e.2.2 true (immediateCue mask tag segment 0 0 0)) s = .next t
      ∧ { t with links := s.links, supervisionExpiry := s.supervisionExpiry }
        = s.executeCue (immediate e.2.1 mask tag segment) := by
  have heard : s.heard.executeCue (immediate e.2.1 mask tag segment)
      = (s.executeCue (immediate e.2.1 mask tag segment)).around s.schedule s.heard.links s.heard.supervisionExpiry :=
    s.executeCue_around s.schedule s.heard.links s.heard.supervisionExpiry _
  have alone : s.executeCue (immediate e.2.1 mask tag segment)
      = (s.executeCue (immediate e.2.1 mask tag segment)).around s.schedule s.links s.supervisionExpiry :=
    s.executeCue_around s.schedule s.links s.supervisionExpiry _
  refine ⟨_, exec_cue_immediate mem s true mask tag segment 0 0 0 (.inl rfl) good, ?_⟩
  simp only [cueTaken, if_true]
  rw [heard]
  exact alone.symm

/-- A CUE frame whose kind byte names no cue is refused with BAD_FIELD (R118, log entry 24). -/
theorem exec_cue_unnamed (s : State) (kind mask tag segment present a b c : Byte) (room : s.canAnswer)
    (report : s.canReport) (unnamed : kind = 0 ∨ 11 < kind.toNat) :
    exec (.automationFrameRefused 0x40 [kind, mask, tag, segment, present, a, b, c]) s
      = .next (s.cueRefused false .badField 3 (some tag.toNat)) := by
  have row (p : List Byte) : exec (.automationFrameRefused 0x40 p) s
      = .next ((s.frameClosed .automation).cueFrame false p) := rfl
  have read : readCue s.heard.time.rate.day [kind, mask, tag, segment, present, a, b, c] = none := by
    have none_named : cueKindOf (byteAt [kind, mask, tag, segment, present, a, b, c] 0) = none :=
      cueKindOf_of_unnamed _ (unnamed.imp_left fun h => by subst h; rfl)
    simp only [readCue, none_named]
  rw [row, State.cueFrame_eq s false _ (.inr room), takeCueFrame_of_unread _ _ rfl read,
    cueTaken_refused s false _ _ report]
  rfl

/-- CANCEL-CUE removes the entries of its tag and answers with their number (R122). -/
theorem exec_cancelCue (s : State) (tag : Byte) (room : s.canAnswer) :
    exec (.cancelCue [tag]) s = .next
      { s.answered (ackOf 0x31 (some ((s.schedule.filter fun e => decide (e.cue.tag = tag.toNat)).length))) with
        schedule := s.schedule.filter fun e => decide (e.cue.tag ≠ tag.toNat) } := by
  have number : s.schedule.length - (s.schedule.filter fun e => decide (e.cue.tag ≠ tag.toNat)).length
      = (s.schedule.filter fun e => decide (e.cue.tag = tag.toNat)).length := by
    have parts := List.length_eq_length_filter_add (l := s.schedule) fun e => decide (e.cue.tag = tag.toNat)
    simp only [decide_not] at parts ⊢
    omega
  rw [← number]
  exact congrArg _ (requestRow_of_ack 0x31 [tag] cancelCueRequest s _ _ room rfl rfl)

/-- Settles O53: a CUE frame by where its target lies, then what is due, then CANCEL-CUE. -/
theorem scheduledCues : Obligations.ScheduledCues := by
  unfold Obligations.ScheduledCues
  refine ⟨fun s e broadcast mask tag segment a b c mem room =>
      ⟨fun good below => ⟨?_, ?_, fun ahead near => ⟨?_, ?_⟩⟩, ?_, ?_⟩,
    exec_cue_unnamed, exec_cueScheduleDue_of_ahead, fun s e x rest tag segment mem hs due cue good => ?_,
    exec_cancelCue⟩
  · exact exec_cue_due mem s broadcast mask tag segment a b c room good below
  · exact exec_cue_late mem s broadcast mask tag segment a b c room good below
  · intro free
    have now := exec_cue_scheduled mem s broadcast mask tag segment a b c room good below ahead near free
    rw [insertCue_eq] at now
    refine ⟨_, _, List.takeWhile_append_dropWhile.symm, fun x hx => ?_, fun x hx => ?_, now⟩
    · simpa using List.mem_takeWhile_imp hx
    · have later := List.head?_dropWhile_not (fun x : ScheduledCue =>
        decide (x.target ≤ s.time.sfc + s.time.ahead (targetOf a b c))) s.schedule
      rw [Option.mem_def.mp hx] at later
      exact Nat.not_le.mp (of_decide_eq_false later)
  · exact exec_cue_full mem s broadcast mask tag segment a b c room good below ahead near
  · exact exec_cue_badField mem s broadcast mask tag segment a b c room
  · exact exec_cue_badLength mem s broadcast room
  · obtain ⟨t, taken, same⟩ := exec_cue_aside mem { s with schedule := rest } x.cue.mask tag segment good
    refine ⟨t, taken, ?_⟩
    rw [exec_cueScheduleDue_of_due s x rest hs due, cue]
    exact congrArg _ same.symm

end Sys2Proof.Machine
end

section
/-! PROOF. What every act of a lane's blocks keeps: the lists within their capacities, the counters at 16 bits and the
parameters in their ranges (R38, R61, R82, R88 to R90, R157). -/

namespace Sys2Proof.Machine

theorem saturate_le (n : Nat) : saturate n ≤ 65535 := Nat.min_le_right ..

/-- Each law of a lane that one lane has, the other has too. -/
structure Lane.Keeps (a b : Lane) : Prop where
  queue : a.engine.queue.length ≤ 32 → b.engine.queue.length ≤ 32
  provisional : a.builder.provisional.length ≤ 4 → b.builder.provisional.length ≤ 4
  recent : a.builder.recent.length ≤ 12 → b.builder.recent.length ≤ 12
  deck : a.deck.units.length ≤ 48 → b.deck.units.length ≤ 48
  counters : a.counters.within → b.counters.within
  params : a.params.inRange → b.params.inRange

theorem Lane.Keeps.refl (a : Lane) : a.Keeps a := ⟨id, id, id, id, id, id⟩

theorem Lane.Keeps.trans {a b c : Lane} (h : a.Keeps b) (k : b.Keeps c) : a.Keeps c :=
  ⟨k.queue ∘ h.queue, k.provisional ∘ h.provisional, k.recent ∘ h.recent, k.deck ∘ h.deck, k.counters ∘ h.counters,
    k.params ∘ h.params⟩

/-- What relates each state to the one after an act relates the first to the last of acts done one after another. -/
theorem foldl_related {σ α : Type} {R : σ → σ → Prop} (refl : ∀ s, R s s) (trans : ∀ {s t u}, R s t → R t u → R s u)
    (f : σ → α → σ) (act : ∀ s a, R s (f s a)) (as : List α) (s : σ) : R s (as.foldl f s) := by
  induction as generalizing s with
  | nil => exact refl s
  | cons a as ih => exact trans (act s a) (ih _)

/-- Acts on a lane, done one after another, keep the laws where each does. -/
theorem foldl_laneKeeps {α : Type} (f : LaneRun → α → LaneRun)
    (keeps : ∀ (r : LaneRun) (a : α), r.lane.Keeps (f r a).lane) (as : List α) (r : LaneRun) :
    r.lane.Keeps (as.foldl f r).lane :=
  foldl_related (R := fun r q => r.lane.Keeps q.lane) (fun r => .refl r.lane) .trans f keeps as r

/-! ## Timing -/

section Timing

variable (env : LaneEnv) (r : LaneRun)

theorem compose_keeps : r.lane.Keeps (compose r).lane := by
  have shorter := compose_queue_length r
  obtain ⟨same, -⟩ | ⟨t, rest, -, -, -, taken⟩ := compose_cases r
  · rw [same]; exact .refl _
  · rw [taken] at shorter ⊢
    exact ⟨shorter.trans, id, id, id, id, id⟩

theorem cutNamed_keeps (ref value : Nat) : r.lane.Keeps (cutNamed env ref value r).lane := by
  have same := cutNamed_queue_length env ref value r
  revert same
  unfold cutNamed
  split
  · exact fun _ => .refl _
  · split
    · exact fun _ => .refl _
    · exact fun same => ⟨same.le.trans, id, id, id,
        fun ⟨released, _, rest⟩ => ⟨released, saturate_le _, rest⟩, id⟩

theorem cutIfLate_keeps (t : TimedUnit) : r.lane.Keeps (cutIfLate env t r).lane := by
  unfold cutIfLate
  split
  · exact .refl _
  · split
    · exact cutNamed_keeps ..
    · exact .refl _

theorem discardHead_keeps (now : Nat) : r.lane.Keeps (discardHead env now r).lane := by
  have shorter := (discardHead_queue_length env now r).trans_le (Nat.sub_le ..)
  revert shorter
  unfold discardHead
  split
  · exact fun _ => .refl _
  · exact fun shorter => ⟨shorter.trans, id, id, id,
      fun ⟨released, cut, stale, _, rest⟩ => ⟨released, cut, stale, saturate_le _, rest⟩, id⟩

theorem appendTimed_keeps (now : Nat) (t : TimedUnit) : r.lane.Keeps (appendTimed env now t r).lane := by
  have within := appendTimed_queue_length env now t r
  revert within
  unfold appendTimed
  dsimp only
  split <;> intro within
  · have h := discardHead_keeps env (r.edit fun ln => { ln with engine := { ln.engine with
      record := some { release := t.release, minimum := t.minimum, ref := t.ref }
      level := t.level, nextRef := t.ref + 1 } }) now
    exact ⟨within, h.provisional, h.recent, h.deck, h.counters, h.params⟩
  · exact ⟨within, id, id, id, id, id⟩

theorem joinScriptWords_keeps (u : CaptionUnit) : r.lane.Keeps (joinScriptWords u r).lane := by
  have within := joinScriptWords_recent_length u r
  revert within
  unfold joinScriptWords
  split
  · exact fun _ => .refl _
  · exact fun within => ⟨id, id, within, id, id, id⟩

theorem timeUnit_keeps (now : Nat) (u : CaptionUnit) : r.lane.Keeps (timeUnit env now u r).lane :=
  (cutIfLate_keeps ..).trans <| (appendTimed_keeps ..).trans <| (joinScriptWords_keeps ..).trans (compose_keeps _)

theorem timeDue_keeps : r.lane.Keeps (timeDue env r).lane :=
  .trans (b := (r.editBuilder _).lane) ⟨id, (List.dropWhile_sublist _).length_le.trans, id, id, id, id⟩
    (foldl_laneKeeps _ (fun r _ => timeUnit_keeps env r _ _) _ _)

theorem timeAll_keeps : r.lane.Keeps (timeAll env r).lane :=
  .trans (b := (r.editBuilder _).lane) ⟨id, fun _ => Nat.zero_le _, id, id, id, id⟩
    (foldl_laneKeeps _ (fun r _ => timeUnit_keeps env r _ _) _ _)

theorem forceHead_keeps : r.lane.Keeps (forceHead env r).lane := by
  unfold forceHead
  split
  · exact .refl _
  · next p rest list =>
    have shorter : rest.length ≤ r.lane.builder.provisional.length := by simp [list]
    exact .trans (b := (r.editBuilder _).lane) ⟨id, shorter.trans, id, id, id, id⟩ (timeUnit_keeps ..)

/-- A unit that joins the provisional list, with what is due then, keeps every law but for the length of that list. -/
theorem timeDue_joined_keeps (q : LaneRun) (p : Provisional) (kept : r.lane.Keeps q.lane)
    (within : r.lane.builder.provisional.length ≤ 4 →
      (timeDue env (q.editBuilder fun b => { b with provisional := b.provisional ++ [p] })).lane.builder.provisional.length
        ≤ 4) :
    r.lane.Keeps (timeDue env (q.editBuilder fun b => { b with provisional := b.provisional ++ [p] })).lane := by
  have timed := timeDue_keeps env (q.editBuilder fun b => { b with provisional := b.provisional ++ [p] })
  exact ⟨timed.queue ∘ kept.queue, within, timed.recent ∘ kept.recent, timed.deck ∘ kept.deck,
    timed.counters ∘ kept.counters, timed.params ∘ kept.params⟩

theorem closeOpen_keeps (cause : CloseCause) : r.lane.Keeps (closeOpen env cause r).lane := by
  have within := closeOpen_provisional_length env cause r
  revert within
  unfold closeOpen
  split
  · exact fun _ => .refl _
  · refine timeDue_joined_keeps env r _ _ ?_
    have emptied : r.lane.Keeps (r.editBuilder fun b => { b with openUnit := none, flush := none }).lane :=
      ⟨id, id, id, id, id, id⟩
    split
    · exact emptied.trans (forceHead_keeps ..)
    · exact emptied

end Timing

/-! ## The builder -/

section Building

variable (env : LaneEnv) (r : LaneRun)

/-- An edit of the builder that adds to neither list of it. -/
theorem LaneRun.editBuilder_keeps (f : Builder → Builder)
    (provisional : (f r.lane.builder).provisional.length ≤ r.lane.builder.provisional.length)
    (recent : r.lane.builder.recent.length ≤ 12 → (f r.lane.builder).recent.length ≤ 12) :
    r.lane.Keeps (r.editBuilder f).lane :=
  ⟨id, provisional.trans, recent, id, id, id⟩

theorem layWord_keeps (w : CapWord) (arrival : Nat) (writer : WriterId) (lag : Nat) :
    r.lane.Keeps (layWord env w arrival writer lag r).lane := by
  have placed (q : LaneRun) : q.lane.Keeps (wordPlaced env w q).lane :=
    ⟨id, id, fun _ => joinWindow_length _ _, id, id, id⟩
  have created (q : LaneRun) : q.lane.Keeps (createUnit env w arrival writer lag q).lane := ⟨id, id, id, id, id, id⟩
  refine .trans ?_ (placed _)
  split
  · exact created r
  · split
    · exact r.editBuilder_keeps _ le_rfl id
    · exact (closeOpen_keeps env r .full).trans (created _)

theorem speakerChange_keeps (writer : WriterId) (index : Byte) :
    r.lane.Keeps (speakerChange env writer index r).lane := by
  refine (closeOpen_keeps env r .speaker).trans ?_
  unfold speakerChange
  dsimp only
  split <;> exact ⟨id, id, id, id, id, id⟩

theorem flushExpiry_keeps : r.lane.Keeps (flushExpiry env r).lane := by
  unfold flushExpiry
  split
  · exact (closeOpen_keeps env r .flush).trans ⟨id, id, id, id, id, id⟩
  · exact .refl _

/-- A deletion adds to no list of the builder (R65). -/
theorem deleteOne_lengths (p : Params) (b c : Builder) (h : deleteOne p b = some c) :
    c.provisional.length ≤ b.provisional.length ∧ c.recent.length ≤ b.recent.length := by
  unfold deleteOne at h
  split at h
  · split at h <;> obtain rfl := Option.some.inj h <;> simp
  · split at h
    · cases h
    · next q last =>
      have filled : b.provisional ≠ [] := fun empty => by simp [empty] at last
      have := List.length_pos_iff.mpr filled
      split at h <;> obtain rfl := Option.some.inj h <;> simp
      omega

theorem deleteWords_lengths (p : Params) (n : Nat) (b : Builder) :
    (deleteWords p n b).1.provisional.length ≤ b.provisional.length
      ∧ (deleteWords p n b).1.recent.length ≤ b.recent.length := by
  induction n generalizing b with
  | zero => exact ⟨le_rfl, le_rfl⟩
  | succ n ih =>
    unfold deleteWords
    split
    · exact ⟨le_rfl, le_rfl⟩
    · next c one =>
      obtain ⟨provisional, recent⟩ := deleteOne_lengths p b c one
      exact ⟨(ih c).1.trans provisional, (ih c).2.trans recent⟩

theorem laneDelete_keeps (writer : WriterId) (n : Nat) : r.lane.Keeps (laneDelete env writer n r).lane := by
  obtain ⟨provisional, recent⟩ := deleteWords_lengths r.lane.params n r.lane.builder
  unfold laneDelete
  dsimp only
  split
  · exact r.editBuilder_keeps _ provisional recent.trans
  · exact ⟨id, provisional.trans, recent.trans, id,
      fun ⟨released, cut, stale, discarded, suppressed, overlap, _⟩ =>
        ⟨released, cut, stale, discarded, suppressed, overlap, saturate_le _⟩, id⟩

end Building

/-! ## The deck player -/

section Playing

variable (env : LaneEnv) (r : LaneRun)

/-- An edit of the deck that adds no unit. -/
theorem LaneRun.editDeck_keeps (f : Deck → Deck) (units : (f r.lane.deck).units.length ≤ r.lane.deck.units.length) :
    r.lane.Keeps (r.editDeck f).lane := ⟨id, id, id, units.trans, id, id⟩

/-- A deck that loses its units, whatever its state and the lane's source then. -/
theorem Deck.without_keeps (ln : Lane) (state : DeckState) (source : Source) :
    ln.Keeps { ln with deck := ln.deck.without state, source := source } :=
  ⟨id, id, id, fun _ => Nat.zero_le _, id, id⟩

theorem exhaust_keeps (segment : Nat) : r.lane.Keeps (exhaust env segment r).lane := by
  unfold exhaust
  split
  · exact Deck.without_keeps ..
  · exact .refl _

theorem timeDeckUnit_keeps (segment : Nat) (u : CaptionUnit) (onset : Nat) :
    r.lane.Keeps (timeDeckUnit env segment u onset r).lane :=
  (r.editDeck_keeps _ (by simp)).trans <| (timeUnit_keeps ..).trans (exhaust_keeps ..)

theorem feedUpTo_keeps (n : Nat) : r.lane.Keeps (feedUpTo env n r).lane := by
  induction n generalizing r with
  | zero => exact .refl _
  | succ n ih =>
    unfold feedUpTo
    split
    · split
      · exact (timeDeckUnit_keeps ..).trans (ih _)
      · exact .refl _
    · exact .refl _

theorem feed_keeps : r.lane.Keeps (feed env r).lane := feedUpTo_keeps ..

theorem composeAndFeed_keeps : r.lane.Keeps (composeAndFeed env r).lane := (compose_keeps r).trans (feed_keeps ..)

theorem carryOutTake_keeps (segment cueFrame : Nat) : r.lane.Keeps (carryOutTake env segment cueFrame r).lane := by
  refine (closeOpen_keeps env r .take).trans <| (timeAll_keeps env _).trans ?_
  unfold carryOutTake
  dsimp only
  split
  · exact .trans (b := LaneRun.lane (.edit _ _)) ⟨id, id, id, id, id, id⟩ (exhaust_keeps ..)
  · exact .trans (b := LaneRun.lane (.edit _ _)) ⟨id, id, id, id, id, id⟩ (timeDeckUnit_keeps ..)
  · exact .trans (b := LaneRun.lane (.edit _ _)) ⟨id, id, id, id, id, id⟩ (feed_keeps ..)

theorem laneTake_keeps (following : Bool) (segment tag : Nat) :
    r.lane.Keeps (laneTake following segment tag env r).lane := by
  unfold laneTake
  split
  · exact .refl _
  · split
    · split
      · exact carryOutTake_keeps ..
      · exact .refl _
    · split
      · exact ⟨id, id, id, id, id, id⟩
      · exact .refl _
    · exact .refl _

theorem laneAdvance_keeps (tag : Nat) : r.lane.Keeps (laneAdvance tag env r).lane := by
  unfold laneAdvance
  split
  · exact timeDeckUnit_keeps ..
  · exact .refl _

theorem dropTake_keeps : r.lane.Keeps (dropTake env r).lane := by
  unfold dropTake
  split
  · exact .refl _
  · exact ⟨id, id, id, id, id, id⟩

theorem endPlaying_keeps : r.lane.Keeps (endPlaying r).lane := by
  unfold endPlaying
  split
  · exact Deck.without_keeps ..
  · exact .refl _

theorem laneEnd_keeps (tag : Nat) : r.lane.Keeps (laneEnd tag env r).lane := by
  unfold laneEnd
  split
  · exact endPlaying_keeps r
  · exact dropTake_keeps ..
  · exact .refl _

theorem invalidateDeck_keeps : r.lane.Keeps (invalidateDeck env r).lane := by
  unfold invalidateDeck
  split
  · exact ⟨id, id, id, fun _ => Nat.zero_le _, id, id⟩
  · exact .refl _

/-- R157: a deck is filled with at most 48 units. -/
theorem fillDeck_keeps (segment : Nat) (units : List CaptionUnit) : r.lane.Keeps (fillDeck segment units env r).lane :=
  ⟨id, id, id, fun _ => by simp [fillDeck, LaneRun.editDeck, Deck.laidOut, Config.deckCapacity],
    id, id⟩

theorem layoutReports_keeps (units : List CaptionUnit) (limited : List Nat) :
    r.lane.Keeps (layoutReports env units limited r).lane := by
  refine (foldl_laneKeeps (fun r i => r.emit env .styleLimit none (some i)) (fun r _ => .refl r.lane) limited r).trans ?_
  unfold layoutReports
  dsimp only
  split <;> exact .refl _

theorem afterPrepare_keeps (segment : Nat) (units : List CaptionUnit) (limited : List Nat) :
    r.lane.Keeps (afterPrepare segment units limited env r).lane := by
  refine (layoutReports_keeps env r units limited).trans ?_
  unfold afterPrepare carryOutPending
  split
  · exact .refl _
  · exact .trans (b := LaneRun.lane (.editDeck _ _)) ⟨id, id, id, id, id, id⟩ (carryOutTake_keeps ..)

theorem startPreparing_keeps (id : Nat) : r.lane.Keeps (startPreparing id env r).lane :=
  r.editDeck_keeps _ (Nat.zero_le _)

theorem abandonDeck_keeps : r.lane.Keeps (abandonDeck env r).lane :=
  (r.editDeck_keeps _ (Nat.zero_le _)).trans (dropTake_keeps ..)

end Playing

/-! ## Lane control -/

section Control

variable (env : LaneEnv) (r : LaneRun)

/-- A walk leaves at most the units it finds, and no more in the queue than stood there (R127). -/
theorem Lane.walked_queue_length (ln : Lane) (now : Nat) :
    (ln.walked now).engine.queue.length ≤ ln.engine.queue.length := by
  have survivors (least : Nat) (ts : List TimedUnit) :
      (raiseReleases least (ts.filter fun t => !staleAt ln.params now t)).length ≤ ts.length := by
    rw [raiseReleases_length]; exact List.length_filter_le ..
  unfold Lane.walked Lane.walk
  dsimp only
  cases ready : ln.display.nextUnit with
  | none => exact survivors ..
  | some t =>
    dsimp only
    split
    · next stale => simpa [stale] using survivors now ln.engine.queue
    · have := survivors now ((some t).toList ++ ln.engine.queue)
      simp only [Option.toList_some, List.singleton_append, List.length_cons, List.length_drop] at *
      omega

theorem Lane.walked_keeps (ln : Lane) (now : Nat) : ln.Keeps (ln.walked now) := by
  have shorter := ln.walked_queue_length now
  revert shorter
  unfold Lane.walked
  dsimp only
  split
  · exact fun shorter => ⟨shorter.trans, id, id, id, id, id⟩
  · split <;> exact fun shorter => ⟨shorter.trans, id, id, id, id, id⟩

theorem retime_keeps : r.lane.Keeps (retime env r).lane := by
  unfold retime
  dsimp only
  refine .trans (b := (r.edit (Lane.walked · env.sfc)).lane) (Lane.walked_keeps ..) <| .trans ?_
    (composeAndFeed_keeps ..)
  split
  · exact .refl _
  · exact ⟨id, id, id, id, fun ⟨released, cut, _, rest⟩ => ⟨released, cut, saturate_le _, rest⟩, id⟩

theorem releaseNext_keeps : r.lane.Keeps (releaseNext env r).lane :=
  ⟨id, id, id, id, fun ⟨_, rest⟩ => ⟨saturate_le _, rest⟩, id⟩

theorem laneThaw_keeps : r.lane.Keeps (laneThaw env r).lane := by
  unfold laneThaw
  split
  · dsimp only
    refine .trans (b := (r.edit fun ln => { ln with frozen := false }).lane) ⟨id, id, id, id, id, id⟩ ?_
    split
    · exact composeAndFeed_keeps ..
    · exact retime_keeps ..
  · exact .refl _

theorem laneResume_keeps : r.lane.Keeps (laneResume env r).lane := by
  unfold laneResume
  split
  · dsimp only
    refine .trans (b := (r.edit fun ln => { ln with held := false }).lane) ⟨id, id, id, id, id, id⟩ ?_
    split
    · exact .refl _
    · exact retime_keeps ..
  · exact .refl _

theorem laneStep_keeps : r.lane.Keeps (laneStep env r).lane := by
  unfold laneStep
  split
  · exact (releaseNext_keeps env r).trans (composeAndFeed_keeps ..)
  · exact .refl _

theorem Lane.swept_keeps (ln : Lane) (keepStyle : Bool) : ln.Keeps (ln.swept keepStyle) :=
  ⟨fun _ => Nat.zero_le _, fun _ => Nat.zero_le _, fun _ => Nat.zero_le _, id, id, id⟩

theorem laneClear_keeps (keepStyle : Bool) : r.lane.Keeps (laneClear keepStyle env r).lane :=
  .trans (b := (r.edit (Lane.swept · keepStyle)).lane) (Lane.swept_keeps ..) <| (endPlaying_keeps _).trans <|
    .trans (b := LaneRun.lane (.edit _ _)) ⟨id, id, id, id, id, id⟩ (dropTake_keeps ..)

theorem laneSplit_keeps : r.lane.Keeps (laneSplit env r).lane :=
  .trans (b := (r.edit (Lane.swept · false)).lane) (Lane.swept_keeps ..) (feed_keeps ..)

theorem laneStart_keeps : r.lane.Keeps (laneStart env r).lane := ⟨id, id, id, id, id, id⟩

theorem laneStop_keeps : r.lane.Keeps (laneStop env r).lane :=
  .trans (b := LaneRun.lane (.edit r _))
    ⟨fun _ => Nat.zero_le _, fun _ => Nat.zero_le _, fun _ => Nat.zero_le _, id, id, id⟩ <|
    (endPlaying_keeps _).trans <|
    .trans (b := LaneRun.lane (.edit _ _)) ⟨id, id, id, id, id, id⟩ (dropTake_keeps ..)

theorem laneCue_keeps (following : Bool) (c : Cue) : r.lane.Keeps (laneCue following c env r).lane := by
  unfold laneCue
  cases c.kind with
  | freeze => exact ⟨id, id, id, id, id, id⟩
  | thaw => exact laneThaw_keeps ..
  | hold => exact ⟨id, id, id, id, id, id⟩
  | step => exact laneStep_keeps ..
  | resume => exact laneResume_keeps ..
  | clear => exact laneClear_keeps ..
  | take => exact laneTake_keeps ..
  | advance => exact laneAdvance_keeps ..
  | finish => exact laneEnd_keeps ..
  | split => exact .refl _
  | join => exact .refl _

theorem withdrawDeck_keeps : r.lane.Keeps (withdrawDeck r).lane := by
  refine ⟨id, id, id, fun within => ?_, id, id⟩
  simp only [withdrawDeck, LaneRun.edit_lane]
  split
  · exact Nat.zero_le _
  · exact Nat.zero_le _
  · exact within

theorem withdrawFlags_keeps : r.lane.Keeps (withdrawFlags env r).lane := by
  unfold withdrawFlags
  split
  · exact .trans (b := LaneRun.lane (.edit r _)) ⟨id, id, id, id, id, id⟩ (retime_keeps ..)
  · exact .refl _

end Control

/-! ## Writers, inserters and parameters -/

section Intake

variable (env : LaneEnv) (r : LaneRun)

theorem suppressWords_keeps (n : Nat) : r.lane.Keeps (suppressWords n r).lane :=
  ⟨id, id, id, id,
    fun ⟨released, cut, stale, discarded, _, rest⟩ => ⟨released, cut, stale, discarded, saturate_le _, rest⟩, id⟩

theorem applyMarks_keeps (w : WriterId) (m : Marks) : r.lane.Keeps (applyMarks env w m r).lane := by
  unfold applyMarks
  dsimp only
  have broken : r.lane.Keeps (if m.brk = true then closeOpen env .brk r else r).lane := by
    split
    · exact closeOpen_keeps ..
    · exact .refl _
  cases m.speaker with
  | none => exact broken
  | some i => exact broken.trans (speakerChange_keeps ..)

theorem replay_keeps (w : WriterId) (lag : Nat) (es : List Staged) (m : Marks) :
    r.lane.Keeps (replay w lag es m env r).lane :=
  (foldl_laneKeeps _ (fun r _ => (applyMarks_keeps env r ..).trans (layWord_keeps ..)) es r).trans (applyMarks_keeps ..)

theorem discardAndReplay_keeps (suppressed : Bool) (v : WriterId) (w : Writer) (k : Nat) :
    r.lane.Keeps (discardAndReplay suppressed v w k env r).lane := by
  unfold discardAndReplay
  dsimp only
  refine .trans (b := (r.edit fun ln => { ln with
    counters := { ln.counters with overlap := saturate (ln.counters.overlap + k) } }).lane) ⟨id, id, id, id,
      fun ⟨released, cut, stale, discarded, suppressed, _, late⟩ =>
        ⟨released, cut, stale, discarded, suppressed, saturate_le _, late⟩, id⟩ ?_
  split
  · exact suppressWords_keeps ..
  · exact replay_keeps ..

theorem alignCheck_keeps (time : TimeBase) (value : Option Nat) : r.lane.Keeps (alignCheck time value env r).lane := by
  unfold alignCheck
  dsimp only
  split_ifs <;> exact ⟨id, id, id, id, id, id⟩

theorem blankAir_keeps : r.lane.Keeps (blankAir r).lane := ⟨id, id, id, id, id, id⟩

theorem serveImage_keeps : r.lane.Keeps (serveImage env r).lane := by
  unfold serveImage
  split
  · exact (releaseNext_keeps env r).trans (composeAndFeed_keeps ..)
  · split
    · exact blankAir_keeps r
    · exact .refl _

/-- Parameters that take effect on a lane, in range where those before were (R88). -/
theorem applyParams_keeps (after : Params) (range : r.lane.params.inRange → after.inRange) :
    r.lane.Keeps (applyParams after env r).lane := by
  unfold applyParams
  dsimp only
  have taken : r.lane.Keeps (r.edit fun ln => { ln with
      params := after
      display := if r.lane.params.align = after.align then ln.display else ln.display.alignReset }).lane :=
    ⟨id, id, id, id, id, range⟩
  cases layoutChanged r.lane.params after with
  | true => exact taken.trans (invalidateDeck_keeps ..)
  | false => exact taken

end Intake

/-! ## The parameter table (R88 to R90) -/

/-- The part of the range law that speaks of the rows (R89). -/
def Params.rowsInRange (p : Params) : Prop :=
  match p.mode with
  | .block => 1 ≤ p.rows ∧ p.rows ≤ 3
  | .roll => 2 ≤ p.rows ∧ p.rows ≤ 4

/-- The part of the range law that speaks of the other numbers (R88, R89). -/
def Params.numbersInRange (p : Params) : Prop :=
  24 ≤ p.width ∧ p.width ≤ 42 ∧ 8 ≤ p.readingRate ∧ p.readingRate ≤ 30
    ∧ 12 ≤ p.hMin ∧ p.hMin ≤ 125 ∧ p.hMin ≤ p.hMax ∧ p.hMax ≤ 375 ∧ 6 ≤ p.hFloor ∧ p.hFloor ≤ p.hMin
    ∧ 25 ≤ p.hClear ∧ p.hClear ≤ 750 ∧ p.lead ≤ 25 ∧ p.delay ≤ 375 ∧ p.correction ≤ 50
    ∧ 13 ≤ p.flush ∧ p.flush ≤ 250 ∧ p.lam1 ≤ 250 ∧ p.lam1 ≤ p.lam2 ∧ p.lam2 ≤ 500 ∧ p.lam2 ≤ p.lamMax
    ∧ p.lamMax ≤ 750 ∧ 25 ≤ p.stale ∧ p.stale ≤ 1500 ∧ p.group ≤ 255

theorem Params.inRange_iff (p : Params) : p.inRange ↔ p.rowsInRange ∧ p.numbersInRange :=
  ⟨fun ⟨width, width', rows, rest⟩ => ⟨rows, width, width', rest⟩,
    fun ⟨rows, width, width', rest⟩ => ⟨width, width', rows, rest⟩⟩

/-- The rows a mode allows (R89). -/
theorem clampRows_inRange (p : Params) (m : Mode) (v : Nat) :
    ({ p with mode := m, rows := clampRows m v } : Params).rowsInRange := by
  cases m <;> simp only [Params.rowsInRange, clampRows] <;> rw [clamp_eq _ _ _ (by decide)] <;> omega

/-- A parameter written leaves every parameter in its range, with the orders that R89 keeps between them. -/
theorem writeParam_inRange (p after : Params) (code v applied : Nat) (h : writeParam p code v = some (after, applied))
    (range : p.inRange) : after.inRange := by
  rw [Params.inRange_iff] at range ⊢
  obtain ⟨rows, numbers⟩ := range
  unfold writeParam at h
  split at h
  case h_1 =>
    split at h
    · cases h; exact ⟨clampRows_inRange p .block p.rows, numbers⟩
    · split at h
      · cases h; exact ⟨clampRows_inRange p .roll p.rows, numbers⟩
      · cases h
  case h_3 => cases h; exact ⟨clampRows_inRange p p.mode v, numbers⟩
  case h_17 =>
    split at h
    · next le =>
      cases h
      exact ⟨rows, by simp only [Params.numbersInRange] at numbers ⊢; omega⟩
    · cases h
  case h_18 | h_19 | h_20 =>
    split at h
    · cases h; exact ⟨rows, numbers⟩
    · split at h
      · cases h; exact ⟨rows, numbers⟩
      · cases h
  case h_21 => cases h
  all_goals
    cases h
    refine ⟨rows, ?_⟩
    simp only [Params.numbersInRange] at numbers
    simp (disch := omega) only [Params.numbersInRange, clamp_eq]
    omega

end Sys2Proof.Machine
end

section
/-! PROOF. What every act of the part keeps: the laws of capacities, of counters and ranges, and of roles, each on the
items of the state that it speaks of (R16, R30, R119, R174, R179, R180, R187). -/

namespace Sys2Proof.Machine

/-! ## The order of the cue schedule (R119) -/

theorem scheduleInOrder_iff (es : List ScheduledCue) :
    scheduleInOrder es ↔ es.Pairwise fun c d => c.target ≤ d.target := by
  induction es with
  | nil => simp [scheduleInOrder]
  | cons c es ih =>
    cases es with
    | nil => simp [scheduleInOrder]
    | cons d es =>
      simp only [scheduleInOrder, ih, List.pairwise_cons (a := c)]
      refine ⟨fun ⟨first, rest⟩ => ⟨?_, rest⟩, fun ⟨all, rest⟩ => ⟨all d (by simp), rest⟩⟩
      simp only [List.mem_cons, forall_eq_or_imp]
      exact ⟨first, fun e he => first.trans ((List.pairwise_cons.mp rest).1 e he)⟩

/-- The law of the schedule: at most 32 entries, in order of target. -/
def State.scheduleLawful (s : State) : Prop := s.schedule.length ≤ 32 ∧ scheduleInOrder s.schedule

/-- A part of the schedule, in its order, is lawful where the schedule is. -/
theorem State.scheduleLawful_of_sublist {s t : State} (h : t.schedule.Sublist s.schedule) (k : s.scheduleLawful) :
    t.scheduleLawful :=
  ⟨h.length_le.trans k.1, (scheduleInOrder_iff _).mpr (((scheduleInOrder_iff _).mp k.2).sublist h)⟩

theorem insertCue_inOrder (es : List ScheduledCue) (c : ScheduledCue) (h : scheduleInOrder es) :
    scheduleInOrder (insertCue es c) := by
  obtain ⟨before, after, rfl, inserted, below, above⟩ := insertCue_split es c
  rw [scheduleInOrder_iff] at *
  rw [inserted]
  obtain ⟨hb, ha, cross⟩ := List.pairwise_append.mp h
  have all_above : ∀ e ∈ after, c.target ≤ e.target := by
    cases after with
    | nil => simp
    | cons d ds =>
      have first : c.target ≤ d.target := (above d rfl).le
      exact List.forall_mem_cons.mpr ⟨first, fun e he => first.trans ((List.pairwise_cons.mp ha).1 e he)⟩
  refine List.pairwise_append.mpr ⟨hb, List.pairwise_cons.mpr ⟨all_above, ha⟩, fun e he d hd => ?_⟩
  obtain rfl | hd := List.mem_cons.mp hd
  · exact below e he
  · exact cross e he d hd

/-! ## Links (R173, R174, R178, R179) -/

/-- A frame body of the greatest size or less stands in the receiver (R174). -/
theorem Receiver.run_body (r : Receiver) (line : List LineByte) (h : r.body.length ≤ 244) :
    (r.run line).1.body.length ≤ 244 := by
  have added (q : Receiver) (b : Byte) : (q.add b).1.body.length ≤ 244 := by
    unfold Receiver.add Config.bodyMax
    split
    · exact Nat.zero_le _
    · simp only [List.length_append, List.length_singleton]; omega
  have flagged (q : Receiver) : q.flag.1.body.length ≤ 244 := by
    unfold Receiver.flag; split
    · exact Nat.zero_le _
    · exact Nat.zero_le _
    · split_ifs <;> exact Nat.zero_le _
  have taken (q : Receiver) (b : LineByte) (h : q.body.length ≤ 244) : (q.take b).1.body.length ≤ 244 := by
    unfold Receiver.take
    split
    · exact flagged q
    · split
      · exact h
      · exact h
      · split_ifs
        · exact added ..
        · exact Nat.zero_le _
        · exact h
        · exact added ..
        · exact Nat.zero_le _
  induction line generalizing r with
  | nil => exact h
  | cons b bs ih => exact ih _ (taken r b h)

/-- Each law of a link that one link state has, the other has too; what waits there is not spoken of. -/
structure LinkState.Keeps (a b : LinkState) : Prop where
  counts : a.countsWithin → b.countsWithin
  body : a.rx.body.length ≤ 244 → b.rx.body.length ≤ 244

theorem LinkState.Keeps.refl (a : LinkState) : a.Keeps a := ⟨id, id⟩

theorem LinkState.Keeps.trans {a b c : LinkState} (h : a.Keeps b) (k : b.Keeps c) : a.Keeps c :=
  ⟨k.counts ∘ h.counts, k.body ∘ h.body⟩

/-- The number of frames of a kind does not rise where frames are taken away. -/
theorem LinkState.countKind_le_of_sublist {a b : LinkState} (h : b.waiting.Sublist a.waiting) (kind : Byte) :
    b.countKind kind ≤ a.countKind kind := (h.filter _).length_le

theorem LinkState.writerLawful_of_sublist {a b : LinkState} (h : b.waiting.Sublist a.waiting) (k : a.writerLawful) :
    b.writerLawful := by
  obtain ⟨roles, refusals, kinds⟩ := k
  exact ⟨(countKind_le_of_sublist h _).trans roles, (countKind_le_of_sublist h _).trans refusals,
    fun f hf => kinds f (h.subset hf)⟩

/-- One more frame waits. -/
theorem LinkState.countKind_push (k : LinkState) (fs : List TxFrame) (f : TxFrame) (kind : Byte) :
    { k with waiting := fs ++ [f] }.countKind kind
      = { k with waiting := fs }.countKind kind + if f.kind = kind then 1 else 0 := by
  by_cases h : f.kind = kind <;> simp [LinkState.countKind, h]

theorem roleKind_ne_refusedKind : roleKind ≠ refusedKind := by decide

/-- R179: a ROLE frame takes the place of the one unsent. -/
theorem LinkState.sendRole_writerLawful (k : LinkState) (f : TxFrame) (hf : f.kind = roleKind) (h : k.writerLawful) :
    (k.sendRole f).writerLawful := by
  have others : (k.waiting.filter fun g => decide (g.kind ≠ roleKind)).Sublist k.waiting := List.filter_sublist
  obtain ⟨-, refusals, kinds⟩ := LinkState.writerLawful_of_sublist (b := { k with waiting := _ }) others h
  have none_left : LinkState.countKind
      { k with waiting := k.waiting.filter fun g => decide (g.kind ≠ roleKind) } roleKind = 0 := by
    simp [LinkState.countKind]
  refine ⟨?_, ?_, fun g hg => ?_⟩
  · rw [LinkState.sendRole, LinkState.countKind_push, none_left, if_pos hf]
  · rwa [LinkState.sendRole, LinkState.countKind_push, hf, if_neg roleKind_ne_refusedKind]
  · obtain hg | hg := List.mem_append.mp hg
    · exact kinds g hg
    · rw [List.mem_singleton.mp hg]; exact .inl hf

/-- R179: a fifth REFUSED frame is dropped. -/
theorem LinkState.sendRefused_writerLawful (k : LinkState) (f : TxFrame) (hf : f.kind = refusedKind)
    (h : k.writerLawful) : (k.sendRefused f).writerLawful := by
  unfold LinkState.sendRefused
  split
  · next room =>
    obtain ⟨roles, -, kinds⟩ := h
    refine ⟨?_, ?_, fun g hg => ?_⟩
    · rwa [LinkState.send, LinkState.countKind_push, hf, if_neg roleKind_ne_refusedKind.symm]
    · rw [LinkState.send, LinkState.countKind_push, if_pos hf]; exact room
    · obtain hg | hg := List.mem_append.mp hg
      · exact kinds g hg
      · rw [List.mem_singleton.mp hg]; exact .inr hf
  · exact h

/-! ## The part -/

/-- Each law of the part but for what waits on link A and the inserter links: where one state has it, the other has it too. -/
structure State.Keeps (s t : State) : Prop where
  lanes : ∀ l, (s.lane l).Keeps (t.lane l)
  staging : (∀ w, (s.writer w).staging.length ≤ 64) → ∀ w, (t.writer w).staging.length ≤ 64
  overflows : (∀ w, (s.writer w).overflows ≤ 65535) → ∀ w, (t.writer w).overflows ≤ 65535
  lags : (∀ w, (s.writer w).lag ≤ 375) → ∀ w, (t.writer w).lag ≤ 375
  roles : s.rolesLawful → t.rolesLawful
  schedule : s.scheduleLawful → t.scheduleLawful
  reports : s.reports.length ≤ 32 → t.reports.length ≤ 32
  styleLimit : 1 ≤ s.styleLimit ∧ s.styleLimit ≤ 16 → 1 ≤ t.styleLimit ∧ t.styleLimit ≤ 16
  supervision : s.supervisionInterval ≤ 60 → t.supervisionInterval ≤ 60
  links : ∀ k, (s.link k).Keeps (t.link k)
  writerLinks : ∀ w, (s.link (.writer w)).writerLawful → (t.link (.writer w)).writerLawful

theorem State.Keeps.trans {s t u : State} (h : s.Keeps t) (k : t.Keeps u) : s.Keeps u where
  lanes l := (h.lanes l).trans (k.lanes l)
  staging := k.staging ∘ h.staging
  overflows := k.overflows ∘ h.overflows
  lags := k.lags ∘ h.lags
  roles := k.roles ∘ h.roles
  schedule := k.schedule ∘ h.schedule
  reports := k.reports ∘ h.reports
  styleLimit := k.styleLimit ∘ h.styleLimit
  supervision := k.supervision ∘ h.supervision
  links j := (h.links j).trans (k.links j)
  writerLinks w := k.writerLinks w ∘ h.writerLinks w

/-- An act of the part keeps its laws and makes no reply. -/
structure State.Acts (s t : State) : Prop extends s.Keeps t where
  automation : (t.link .automation).waiting = (s.link .automation).waiting
  inserters : ∀ l, (t.link (.inserter l)).waiting = (s.link (.inserter l)).waiting

theorem State.Acts.trans {s t u : State} (h : s.Acts t) (k : t.Acts u) : s.Acts u where
  toKeeps := h.toKeeps.trans k.toKeeps
  automation := k.automation.trans h.automation
  inserters l := (k.inserters l).trans (h.inserters l)

/-- An act that changes none of the items that the laws speak of. -/
theorem State.Acts.of_same {s t : State} (lanes : t.lanes = s.lanes) (writers : t.writers = s.writers)
    (schedule : t.schedule = s.schedule) (reports : t.reports = s.reports) (styleLimit : t.styleLimit = s.styleLimit)
    (supervision : t.supervisionInterval = s.supervisionInterval) (links : t.links = s.links) : s.Acts t where
  lanes l := by simp only [State.lane, lanes]; exact .refl _
  staging h w := by simpa only [State.writer, writers] using h w
  overflows h w := by simpa only [State.writer, writers] using h w
  lags h w := by simpa only [State.writer, writers] using h w
  roles h := by simpa only [State.rolesLawful, State.writer, writers] using h
  schedule h := by simpa only [State.scheduleLawful, schedule] using h
  reports h := by simpa only [reports] using h
  styleLimit h := by simpa only [styleLimit] using h
  supervision h := by simpa only [supervision] using h
  links k := by simp only [State.link, links]; exact .refl _
  writerLinks w h := by simpa only [State.link, links] using h
  automation := by simp only [State.link, links]
  inserters l := by simp only [State.link, links]

theorem State.Acts.refl (s : State) : s.Acts s := .of_same rfl rfl rfl rfl rfl rfl rfl

/-- Acts done one after another. -/
theorem foldl_acts {α : Type} (f : State → α → State) (acts : ∀ (s : State) (a : α), s.Acts (f s a)) (as : List α)
    (s : State) : s.Acts (as.foldl f s) := foldl_related .refl .trans f acts as s

/-! ## One item of the state changed -/

section Items

variable (s : State)

theorem State.queueReports_acts (rs : List Report) : s.Acts (s.queueReports rs) := by
  rw [State.queueReports_eq]
  exact { State.Acts.refl s with reports := s.queueReports_length rs }

theorem State.report_acts (k : ReportKind) (l : Option LaneId) (w : Option WriterId) (v : Option Nat) :
    s.Acts (s.report k l w v) := s.queueReports_acts [_]

theorem State.setLane_acts (l : LaneId) (x : Lane) (h : (s.lane l).Keeps x) : s.Acts (s.setLane l x) :=
  { State.Acts.refl s with
    lanes := fun m => by
      obtain rfl | other := eq_or_ne m l
      · rwa [State.lane_setLane_self]
      · rw [State.lane_setLane_of_ne s x other]; exact .refl _ }

/-- A lane's blocks at work on the lane as it stands. -/
theorem State.onLane_acts_of_lane (l : LaneId) (act : LaneEnv → LaneRun → LaneRun)
    (h : (s.lane l).Keeps (act (s.env l) { lane := s.lane l, out := [] }).lane) : s.Acts (s.onLane l act) :=
  (s.setLane_acts l _ h).trans (State.queueReports_acts ..)

/-- A lane's blocks at work. -/
theorem State.onLane_acts (l : LaneId) (act : LaneEnv → LaneRun → LaneRun)
    (h : ∀ (env : LaneEnv) (r : LaneRun), r.lane.Keeps (act env r).lane) : s.Acts (s.onLane l act) :=
  s.onLane_acts_of_lane l act (h (s.env l) { lane := s.lane l, out := [] })

/-- A link changed, and nothing waiting there but on a writer link. -/
theorem State.setLink_acts (k : Link) (x : LinkState) (keeps : (s.link k).Keeps x)
    (writer : ∀ w, k = .writer w → (s.link k).writerLawful → x.writerLawful)
    (reply : (∀ w, k ≠ .writer w) → x.waiting = (s.link k).waiting) : s.Acts (s.setLink k x) :=
  { State.Acts.refl s with
    links := fun j => by
      obtain rfl | other := eq_or_ne j k
      · rwa [State.link_setLink_self]
      · rw [State.link_setLink_of_ne s x other]; exact .refl _
    writerLinks := fun w => by
      obtain rfl | other := eq_or_ne (.writer w) k
      · rw [State.link_setLink_self]; exact writer w rfl
      · rw [State.link_setLink_of_ne s x other]; exact id
    automation := by
      obtain rfl | other := eq_or_ne .automation k
      · rw [State.link_setLink_self]; exact reply nofun
      · rw [State.link_setLink_of_ne s x other]
    inserters := fun l => by
      obtain rfl | other := eq_or_ne (.inserter l) k
      · rw [State.link_setLink_self]; exact reply nofun
      · rw [State.link_setLink_of_ne s x other] }

/-- A link whose waiting frames stay. -/
theorem State.setLink_acts_of_waiting (k : Link) (x : LinkState) (keeps : (s.link k).Keeps x)
    (waiting : x.waiting = (s.link k).waiting) : s.Acts (s.setLink k x) :=
  s.setLink_acts k x keeps (fun _ _ => LinkState.writerLawful_of_sublist (waiting ▸ List.Sublist.refl _)) fun _ => waiting

theorem State.countGood_acts (k : Link) : s.Acts (s.countGood k) :=
  s.setLink_acts_of_waiting k _ ⟨fun ⟨_, rest⟩ => ⟨saturate_le _, rest⟩, id⟩ rfl

theorem State.frameClosed_acts (k : Link) : s.Acts (s.frameClosed k) :=
  s.setLink_acts_of_waiting k _ ⟨id, fun _ => Nat.zero_le _⟩ rfl

theorem State.goodFrame_acts (k : Link) : s.Acts (s.goodFrame k) :=
  (s.frameClosed_acts k).trans (State.countGood_acts ..)

theorem State.announceRole_acts (w : WriterId) : s.Acts (s.announceRole w) :=
  s.setLink_acts (.writer w) _ ⟨id, id⟩ (fun _ _ => LinkState.sendRole_writerLawful _ _ rfl) fun no => absurd rfl (no w)

theorem State.refuseWriter_acts (w : WriterId) (reason : Reason) (kind : Byte) :
    s.Acts (s.refuseWriter w reason kind) := by
  refine s.setLink_acts (.writer w) _ ?_ (fun _ _ => LinkState.sendRefused_writerLawful _ _ rfl)
    fun no => absurd rfl (no w)
  unfold LinkState.sendRefused
  split <;> exact ⟨id, id⟩

theorem State.restartSupervision_acts : s.Acts s.restartSupervision := by
  unfold State.restartSupervision
  split
  · exact .refl s
  · exact .of_same rfl rfl rfl rfl rfl rfl rfl

theorem State.automationGood_acts : s.Acts s.automationGood :=
  (s.countGood_acts .automation).trans (State.restartSupervision_acts _)

theorem State.withStore_acts (x : Store) : s.Acts (s.withStore x) := .of_same rfl rfl rfl rfl rfl rfl rfl

theorem State.withTime_acts (x : TimeBase × List Report) : s.Acts (s.withTime x) :=
  .trans (t := { s with time := x.1 }) (.of_same rfl rfl rfl rfl rfl rfl rfl) (State.queueReports_acts ..)

end Items

/-! ## Cues and withdraw -/

section Cues

variable (s : State)

theorem State.join_acts : s.Acts s.join := by
  have cleared := s.onLane_acts .lane1 (laneClear false) (fun env r => laneClear_keeps env r false)
  unfold State.join
  dsimp only
  split
  · exact cleared
  · exact cleared.trans (.of_same rfl rfl rfl rfl rfl rfl rfl)

theorem State.split_acts : s.Acts s.split :=
  .trans (t := { s with following := false }) (.of_same rfl rfl rfl rfl rfl rfl rfl)
    (State.onLane_acts _ _ _ laneSplit_keeps)

theorem State.executeCue_acts (c : Cue) : s.Acts (s.executeCue c) := by
  have oneLane (s : State) (l : LaneId) : s.Acts (s.cueIfAddressed c l) := by
    unfold State.cueIfAddressed State.cueOnLane
    split
    · split
      · exact s.join_acts
      · exact s.split_acts
      · split
        · exact s.onLane_acts _ _ fun env r => laneCue_keeps env r _ c
        · exact .refl s
    · exact .refl s
  exact (oneLane s .lane0).trans (oneLane _ .lane1)

theorem State.forgetCues_acts : s.Acts { s with schedule := [], supervisionExpiry := none } :=
  { State.Acts.refl s with schedule := fun _ => ⟨Nat.zero_le _, trivial⟩ }

theorem State.withdraw_acts (byExpiry : Bool) : s.Acts (s.withdraw byExpiry) := by
  have both (act : LaneEnv → LaneRun → LaneRun) (h : ∀ (env : LaneEnv) (r : LaneRun), r.lane.Keeps (act env r).lane) (s : State) :
      s.Acts ((s.onLane .lane0 act).onLane .lane1 act) := (s.onLane_acts _ _ h).trans (State.onLane_acts _ _ _ h)
  refine (both _ (fun _ => withdrawDeck_keeps) s).trans <| (both _ withdrawFlags_keeps _).trans <|
    (both _ dropTake_keeps _).trans <| (State.forgetCues_acts _).trans (State.report_acts ..)

theorem State.refuseCueArrival_acts (r : Reason) (p : List Byte) : s.Acts (s.refuseCueArrival r p) := s.report_acts ..

theorem State.acceptCue_acts (p : List Byte) (c : Cue) (target : Option Nat) : s.Acts (s.acceptCue p c target).1 := by
  unfold State.acceptCue Config.scheduleCapacity
  split
  · exact s.executeCue_acts c
  · split
    · exact s.executeCue_acts c
    · exact (s.report_acts ..).trans (State.executeCue_acts ..)
    · split
      · exact s.refuseCueArrival_acts ..
      · next room =>
        exact { State.Acts.refl s with
          schedule := fun ⟨_, order⟩ => ⟨by rw [insertCue_length]; omega, insertCue_inOrder _ _ order⟩ }

theorem takeCueFrame_acts (p : List Byte) : s.Acts (takeCueFrame p s).1 := by
  unfold takeCueFrame
  split
  · exact s.refuseCueArrival_acts ..
  · split
    · exact s.refuseCueArrival_acts ..
    · exact s.acceptCue_acts ..

end Cues

end Sys2Proof.Machine
end

section
/-! PROOF. What the writers' messages and the assigning of roles keep of the laws (R16 to R48). -/

namespace Sys2Proof.Machine

/-! ## Roles (R16, R18, R47) -/

/-- The law of roles: no two writers share a role other than IDLE, and a writer that is not STANDBY stages nothing. -/
theorem State.rolesLawful_iff (s : State) : s.rolesLawful ↔
    (∀ u v, (s.writer u).role ≠ .idle → (s.writer v).role = (s.writer u).role → v = u)
      ∧ ∀ w, (∀ l, (s.writer w).role ≠ .standby l) →
        (s.writer w).staging = [] ∧ (s.writer w).marks = Marks.empty ∧ (s.writer w).overflowReported = false := by
  refine ⟨fun ⟨onAir, standby, rest⟩ => ⟨fun u v busy same => ?_, rest⟩,
    fun ⟨alone, rest⟩ => ⟨fun u v l hu hv => ?_, fun u v l hu hv => ?_, rest⟩⟩
  · cases role : (s.writer u).role with
    | idle => exact absurd role busy
    | onAir l => exact onAir v u l (same.trans role) role
    | standby l => exact standby v u l (same.trans role) role
  · exact alone v u (by simp [hv]) (hu.trans hv.symm)
  · exact alone v u (by simp [hv]) (hu.trans hv.symm)

/-- A writer that takes a role which no other holds, and stages nothing unless that role is STANDBY. -/
theorem State.rolesLawful_setWriter {s : State} (h : s.rolesLawful) (w : WriterId) (x : Writer)
    (alone : ∀ v, v ≠ w → x.role ≠ .idle → (s.writer v).role ≠ x.role)
    (rest : (∀ l, x.role ≠ .standby l) → x.staging = [] ∧ x.marks = Marks.empty ∧ x.overflowReported = false) :
    (s.setWriter w x).rolesLawful := by
  rw [State.rolesLawful_iff] at h ⊢
  obtain ⟨unshared, unstaged⟩ := h
  refine ⟨fun u v => ?_, fun u => ?_⟩
  · obtain rfl | hu := eq_or_ne u w <;> obtain rfl | hv := eq_or_ne v u
    · exact fun _ _ => rfl
    · rw [State.writer_setWriter_self, State.writer_setWriter_of_ne s x hv]
      exact fun busy same => absurd same (alone v hv busy)
    · exact fun _ _ => rfl
    · obtain rfl | hw := eq_or_ne v w
      · rw [State.writer_setWriter_self, State.writer_setWriter_of_ne s x hu]
        exact fun busy same => absurd same.symm (alone u hu (same ▸ busy))
      · rw [State.writer_setWriter_of_ne s x hu, State.writer_setWriter_of_ne s x hw]
        exact unshared u v
  · obtain rfl | hu := eq_or_ne u w
    · rw [State.writer_setWriter_self]; exact rest
    · rw [State.writer_setWriter_of_ne s x hu]; exact unstaged u

section Writers

variable (s : State)

/-- An act, and then one writer changed. -/
theorem State.Acts.setWriter {s t : State} (h : s.Acts t) (w : WriterId) (x : Writer)
    (staging : (t.writer w).staging.length ≤ 64 → x.staging.length ≤ 64)
    (overflows : (t.writer w).overflows ≤ 65535 → x.overflows ≤ 65535) (lag : (t.writer w).lag ≤ 375 → x.lag ≤ 375)
    (roles : s.rolesLawful → (t.setWriter w x).rolesLawful) : s.Acts (t.setWriter w x) := by
  have one (P : Writer → Prop) (change : P (t.writer w) → P x) (all : ∀ v, P (t.writer v)) (v : WriterId) :
      P ((t.setWriter w x).writer v) := by
    obtain rfl | other := eq_or_ne v w
    · rw [State.writer_setWriter_self]; exact change (all v)
    · rw [State.writer_setWriter_of_ne t x other]; exact all v
  exact { h with
    staging := fun k => one (·.staging.length ≤ 64) staging (h.staging k)
    overflows := fun k => one (·.overflows ≤ 65535) overflows (h.overflows k)
    lags := fun k => one (·.lag ≤ 375) lag (h.lags k)
    roles := roles }

/-- A writer that keeps its role keeps the law of roles. -/
theorem State.rolesLawful_setWriter_of_role {s : State} (h : s.rolesLawful) (w : WriterId) (x : Writer)
    (role : x.role = (s.writer w).role)
    (rest : (∀ l, x.role ≠ .standby l) → x.staging = [] ∧ x.marks = Marks.empty ∧ x.overflowReported = false) :
    (s.setWriter w x).rolesLawful :=
  State.rolesLawful_setWriter h w x
    (fun v other busy same => other (((s.rolesLawful_iff).mp h).1 w v (role ▸ busy) (same.trans role))) rest

/-- A STANDBY writer that keeps its role, whatever it stages. -/
theorem State.setWriter_acts_of_standby {l : LaneId} (w : WriterId) (x : Writer) (h : (s.writer w).role = .standby l)
    (role : x.role = .standby l) (staging : (s.writer w).staging.length ≤ 64 → x.staging.length ≤ 64)
    (overflows : (s.writer w).overflows ≤ 65535 → x.overflows ≤ 65535) (lag : x.lag = (s.writer w).lag) :
    s.Acts (s.setWriter w x) :=
  (State.Acts.refl s).setWriter w x staging overflows lag.le.trans fun lawful =>
    State.rolesLawful_setWriter_of_role lawful w x (role.trans h.symm) fun no => absurd role (no l)

theorem State.holder_role {s : State} {r : Role} {w : WriterId} (h : s.holder r = some w) : (s.writer w).role = r := by
  simpa using List.find?_some h

theorem State.holder_none {s : State} {r : Role} (h : s.holder r = none) (w : WriterId) : (s.writer w).role ≠ r := by
  have none_holds := List.find?_eq_none.mp h w (by cases w <;> decide)
  simpa using none_holds

/-! ### A writer leaves its role and takes another (R18) -/

/-- The writer as it leaves its role. -/
def Writer.leaving (x : Writer) : Writer :=
  match x.role with
  | .standby _ => { x.emptied with role := .idle }
  | _ => { x with role := .idle }

@[simp] theorem Writer.leaving_role (x : Writer) : x.leaving.role = .idle := by unfold Writer.leaving; split <;> rfl
@[simp] theorem Writer.leaving_lag (x : Writer) : x.leaving.lag = x.lag := by unfold Writer.leaving; split <;> rfl
@[simp] theorem Writer.leaving_overflows (x : Writer) : x.leaving.overflows = x.overflows := by
  unfold Writer.leaving; split <;> rfl

theorem Writer.leaving_staging (x : Writer) : x.leaving.staging.length ≤ x.staging.length := by
  unfold Writer.leaving
  split
  · exact Nat.zero_le _
  · exact le_rfl

/-- A writer that leaves its role stages nothing then (R16, R30). -/
theorem State.leaving_unstaged {s : State} (lawful : s.rolesLawful) (w : WriterId) :
    (s.writer w).leaving.staging = [] ∧ (s.writer w).leaving.marks = Marks.empty
      ∧ (s.writer w).leaving.overflowReported = false := by
  unfold Writer.leaving
  split
  · exact ⟨rfl, rfl, rfl⟩
  · next no => exact lawful.2.2 w no

/-- The part after the lane of an on-air writer that leaves its role closes its open unit. -/
def State.relieved (s : State) (w : WriterId) : State :=
  match (s.writer w).role with
  | .onAir l => s.onLane l fun env => closeOpen env .handover
  | _ => s

@[simp] theorem State.relieved_writer (w v : WriterId) : (s.relieved w).writer v = s.writer v := by
  unfold State.relieved; split <;> simp

theorem State.relieved_acts (w : WriterId) : s.Acts (s.relieved w) := by
  unfold State.relieved
  split
  · exact s.onLane_acts _ _ fun env r => closeOpen_keeps env r .handover
  · exact .refl s

theorem State.leaveRole_eq (w : WriterId) : s.leaveRole w = (s.relieved w).setWriter w (s.writer w).leaving := by
  cases role : (s.writer w).role <;> simp [State.leaveRole, State.relieved, Writer.leaving, role]

@[simp] theorem State.leaveRole_writer_self (w : WriterId) : (s.leaveRole w).writer w = (s.writer w).leaving := by
  rw [State.leaveRole_eq, State.writer_setWriter_self]

theorem State.leaveRole_writer_of_ne {w v : WriterId} (h : v ≠ w) : (s.leaveRole w).writer v = s.writer v := by
  rw [State.leaveRole_eq, State.writer_setWriter_of_ne _ _ h, State.relieved_writer]

theorem State.leaveRole_acts (w : WriterId) : s.Acts (s.leaveRole w) := by
  have relieved := s.relieved_acts w
  rw [State.leaveRole_eq]
  refine relieved.setWriter w _ ?_ ?_ ?_ fun lawful => State.rolesLawful_setWriter (relieved.roles lawful) w _
    (fun _ _ busy => absurd (Writer.leaving_role _) busy) fun _ => State.leaving_unstaged lawful w
  all_goals rw [State.relieved_writer]
  · exact (Writer.leaving_staging _).trans
  · exact (Writer.leaving_overflows _).le.trans
  · exact (Writer.leaving_lag _).le.trans

/-- R18, step 2: the writer that holds a role leaves it. -/
def State.vacated (s : State) (x : Role) : State :=
  match s.holder x with
  | some v => s.leaveRole v
  | none => s

theorem State.vacated_acts (x : Role) : s.Acts (s.vacated x) := by
  unfold State.vacated
  split
  · exact s.leaveRole_acts _
  · exact .refl s

/-- A writer that does not hold the role is not touched. -/
theorem State.vacated_writer {w : WriterId} {x : Role} (h : (s.writer w).role ≠ x) :
    (s.vacated x).writer w = s.writer w := by
  unfold State.vacated
  split
  · next v holds => exact s.leaveRole_writer_of_ne fun same => h (same ▸ State.holder_role holds)
  · rfl

/-- The role is free then. -/
theorem State.vacated_free {s : State} (lawful : s.rolesLawful) {x : Role} (busy : x ≠ .idle) (v : WriterId) :
    ((s.vacated x).writer v).role ≠ x := by
  unfold State.vacated
  split
  · next u holds =>
    have role := State.holder_role holds
    obtain rfl | other := eq_or_ne v u
    · rw [State.leaveRole_writer_self, Writer.leaving_role]; exact busy.symm
    · rw [State.leaveRole_writer_of_ne s other]
      exact fun same => other (((s.rolesLawful_iff).mp lawful).1 u v (role ▸ busy) (same.trans role.symm))
  · next free => exact State.holder_none free v

/-- The writer as it takes a role. -/
def Writer.taking (x : Writer) (r : Role) : Writer :=
  match r with
  | .standby _ => { x.emptied with role := r }
  | _ => { x with role := r }

@[simp] theorem Writer.taking_role (x : Writer) (r : Role) : (x.taking r).role = r := by cases r <;> rfl
@[simp] theorem Writer.taking_lag (x : Writer) (r : Role) : (x.taking r).lag = x.lag := by cases r <;> rfl
@[simp] theorem Writer.taking_overflows (x : Writer) (r : Role) : (x.taking r).overflows = x.overflows := by
  cases r <;> rfl

theorem Writer.taking_staging (x : Writer) (r : Role) : (x.taking r).staging.length ≤ x.staging.length := by
  cases r with
  | standby l => exact Nat.zero_le _
  | idle | onAir l => exact le_rfl

/-- An ASSIGN to a role other than IDLE: the writer leaves its role, then the holder leaves the new one, then the writer
takes it (R18). -/
theorem State.assignRole_eq (w : WriterId) (r : Role) (busy : r ≠ .idle) :
    s.assignRole w r = ((s.leaveRole w).vacated r).setWriter w ((((s.leaveRole w).vacated r).writer w).taking r) := by
  cases r with
  | idle => exact absurd rfl busy
  | onAir l | standby l => rfl

/-- The writer as it stands before it takes a role other than IDLE. -/
theorem State.vacated_leaveRole_writer (w : WriterId) (r : Role) (busy : r ≠ .idle) :
    ((s.leaveRole w).vacated r).writer w = (s.writer w).leaving := by
  rw [State.vacated_writer, State.leaveRole_writer_self]
  rw [State.leaveRole_writer_self, Writer.leaving_role]
  exact busy.symm

theorem State.assignRole_acts (w : WriterId) (r : Role) : s.Acts (s.assignRole w r) := by
  have left := s.leaveRole_acts w
  by_cases busy : r = .idle
  · subst busy; exact left
  · have vacated := left.trans ((s.leaveRole w).vacated_acts r)
    have idle := s.vacated_leaveRole_writer w r busy
    rw [s.assignRole_eq w r busy]
    refine vacated.setWriter w _ (Writer.taking_staging ..).trans (Writer.taking_overflows ..).le.trans
      (Writer.taking_lag ..).le.trans fun lawful =>
      State.rolesLawful_setWriter (vacated.roles lawful) w _ (fun v _ _ => ?_) fun no => ?_
    · rw [Writer.taking_role]; exact State.vacated_free (left.roles lawful) busy v
    · rw [idle]
      cases r with
      | standby l => exact absurd rfl (no l)
      | idle | onAir l => exact State.leaving_unstaged lawful w

theorem announceChanges_acts (before : PerWriter Writer) : s.Acts (announceChanges before s) :=
  foldl_acts _ (fun s w => by
    split
    · exact .refl s
    · exact s.announceRole_acts w) _ s

/-! ### Staging (R30 to R34) -/

/-- What staging a word keeps of a writer. -/
theorem Writer.stage_keeps (x : Writer) (t : Text) (attach : Bool) (arrival : Nat) :
    (x.stage t attach arrival).1.role = x.role ∧ (x.stage t attach arrival).1.lag = x.lag
      ∧ (x.staging.length ≤ 64 → (x.stage t attach arrival).1.staging.length ≤ 64)
      ∧ (x.overflows ≤ 65535 → (x.stage t attach arrival).1.overflows ≤ 65535) := by
  unfold Writer.stage Config.stagingCapacity
  cases list : x.staging with
  | nil => exact ⟨rfl, rfl, fun _ => by simp, id⟩
  | cons e es =>
    dsimp only
    split
    · refine ⟨rfl, rfl, fun within => ?_, fun _ => saturate_le _⟩
      cases es <;> simp_all [foldOntoOldest]
    · next room => exact ⟨rfl, rfl, fun _ => by simp at room ⊢; omega, id⟩

theorem State.stageWord_acts {l : LaneId} (w : WriterId) (h : (s.writer w).role = .standby l) (t : Text)
    (attach : Bool) : s.Acts (s.stageWord w l t attach) := by
  obtain ⟨role, lag, staging, overflows⟩ := (s.writer w).stage_keeps t attach s.time.sfc
  have staged := s.setWriter_acts_of_standby w _ h (role.trans h) staging overflows lag
  unfold State.stageWord
  dsimp only
  split
  · exact staged.trans (State.report_acts ..)
  · exact staged

theorem State.unstage_acts {l : LaneId} (w : WriterId) (h : (s.writer w).role = .standby l) (n : Nat) :
    s.Acts (s.setWriter w ((s.writer w).unstage n)) := by
  unfold Writer.unstage
  dsimp only
  split
  · rw [State.setWriter_writer]; exact .refl s
  · exact s.setWriter_acts_of_standby w _ h h
      (fun within => (List.length_take_le' ..).trans within) id rfl

/-! ### The handover (R40 to R48) -/

/-! The writers after the exchange (R41, R47). -/

theorem State.exchangeRoles_incoming (l : LaneId) {w : WriterId} {out : Option WriterId} (other : out ≠ some w) :
    (s.exchangeRoles l w out).writer w = { (s.writer w).emptied with role := .onAir l } := by
  unfold State.exchangeRoles
  cases out with
  | none => simp
  | some o => rw [State.writer_setWriter_of_ne _ _ fun same => other (congrArg _ same.symm), State.writer_setWriter_self]

theorem State.exchangeRoles_outgoing (l : LaneId) {w o : WriterId} (other : o ≠ w) :
    (s.exchangeRoles l w (some o)).writer o = { (s.writer o).emptied with role := .standby l } := by
  simp [State.exchangeRoles, State.writer_setWriter_of_ne _ _ other]

theorem State.exchangeRoles_others (l : LaneId) {w : WriterId} {out : Option WriterId} {u : WriterId} (hw : u ≠ w)
    (ho : out ≠ some u) : (s.exchangeRoles l w out).writer u = s.writer u := by
  unfold State.exchangeRoles
  cases out with
  | none => exact State.writer_setWriter_of_ne _ _ hw
  | some o =>
    dsimp only
    rw [State.writer_setWriter_of_ne _ _ fun same => ho (congrArg _ same.symm), State.writer_setWriter_of_ne _ _ hw]

/-- The exchange touches the writers alone. -/
theorem State.exchangeRoles_eq (l : LaneId) (w : WriterId) (out : Option WriterId) :
    s.exchangeRoles l w out = { s with writers := (s.exchangeRoles l w out).writers } := by
  cases out <;> rfl

/-- The standby writer of a lane is not its holder. -/
theorem State.holder_ne_standby {s : State} {l : LaneId} {w : WriterId} (h : (s.writer w).role = .standby l) :
    s.holder (.onAir l) ≠ some w := fun holds => by simpa [h] using State.holder_role holds

/-- Each writer after the exchange: the incoming one, the outgoing one, or another. -/
theorem State.exchangeRoles_cases (l : LaneId) {w : WriterId} {out : Option WriterId} (other : out ≠ some w)
    (u : WriterId) :
    (u = w ∧ (s.exchangeRoles l w out).writer u = { (s.writer u).emptied with role := .onAir l })
      ∨ (out = some u ∧ (s.exchangeRoles l w out).writer u = { (s.writer u).emptied with role := .standby l })
      ∨ (u ≠ w ∧ out ≠ some u ∧ (s.exchangeRoles l w out).writer u = s.writer u) := by
  by_cases hw : u = w
  · subst hw; exact .inl ⟨rfl, s.exchangeRoles_incoming l other⟩
  · by_cases ho : out = some u
    · subst ho; exact .inr (.inl ⟨rfl, s.exchangeRoles_outgoing l hw⟩)
    · exact .inr (.inr ⟨hw, ho, s.exchangeRoles_others l hw ho⟩)

/-- An exchange between the STANDBY writer of a lane and its holder, if any, keeps the law of roles (R16, R47). -/
theorem State.exchangeRoles_rolesLawful {s : State} (lawful : s.rolesLawful) {l : LaneId} (w : WriterId)
    (h : (s.writer w).role = .standby l) : (s.exchangeRoles l w (s.holder (.onAir l))).rolesLawful := by
  obtain ⟨unshared, unstaged⟩ := s.rolesLawful_iff.mp lawful
  have noneOnAir (v : WriterId) (hv : s.holder (.onAir l) ≠ some v) : (s.writer v).role ≠ .onAir l := by
    cases holds : s.holder (.onAir l) with
    | none => exact State.holder_none holds v
    | some o =>
      have role := State.holder_role holds
      exact fun same => hv (holds.trans (congrArg _ (unshared o v (by simp [role]) (same.trans role.symm)).symm))
  have noneStandby (v : WriterId) (hv : v ≠ w) : (s.writer v).role ≠ .standby l :=
    fun same => hv (unshared w v (by simp [h]) (same.trans h.symm))
  have each := s.exchangeRoles_cases l (State.holder_ne_standby h)
  refine (State.rolesLawful_iff _).mpr ⟨fun u v busy same => ?_, fun u no => ?_⟩
  · obtain ⟨rfl, hu⟩ | ⟨out, hu⟩ | ⟨uw, uo, hu⟩ := each u <;> rw [hu] at busy same
    · obtain ⟨rfl, hv⟩ | ⟨_, hv⟩ | ⟨_, vo, hv⟩ := each v <;> rw [hv] at same
      · cases same
      · exact absurd same (noneOnAir v vo)
    · obtain ⟨rfl, hv⟩ | ⟨out', _⟩ | ⟨vw, _, hv⟩ := each v
      · rw [hv] at same; cases same
      · exact Option.some.inj (out'.symm.trans out)
      · rw [hv] at same; exact absurd same (noneStandby v vw)
    · obtain ⟨rfl, hv⟩ | ⟨_, hv⟩ | ⟨_, _, hv⟩ := each v <;> rw [hv] at same
      · exact absurd same.symm (noneOnAir u uo)
      · exact absurd same.symm (noneStandby u uw)
      · exact unshared u v busy same
  · obtain ⟨rfl, hu⟩ | ⟨_, hu⟩ | ⟨_, _, hu⟩ := each u <;> rw [hu] at no ⊢
    · exact ⟨rfl, rfl, rfl⟩
    · exact ⟨rfl, rfl, rfl⟩
    · exact unstaged u no

theorem State.exchangeRoles_acts {l : LaneId} (w : WriterId) (h : (s.writer w).role = .standby l) :
    s.Acts (s.exchangeRoles l w (s.holder (.onAir l))) := by
  have one (P : Writer → Prop) (change : ∀ (x : Writer) (r : Role), P x → P { x.emptied with role := r })
      (all : ∀ v, P (s.writer v)) (v : WriterId) : P ((s.exchangeRoles l w (s.holder (.onAir l))).writer v) := by
    obtain ⟨-, hv⟩ | ⟨-, hv⟩ | ⟨-, -, hv⟩ := s.exchangeRoles_cases l (State.holder_ne_standby h) v <;> rw [hv]
    · exact change _ _ (all v)
    · exact change _ _ (all v)
    · exact all v
  rw [State.exchangeRoles_eq]
  exact { State.Acts.refl s with
    staging := one (·.staging.length ≤ 64) fun _ _ _ => Nat.zero_le _
    overflows := one (·.overflows ≤ 65535) fun _ _ => id
    lags := one (·.lag ≤ 375) fun _ _ => id
    roles := fun lawful => State.exchangeRoles_rolesLawful lawful w h }

/-- The holder of a role reads the writers alone. -/
theorem State.holder_congr {s t : State} (h : t.writers = s.writers) (r : Role) : t.holder r = s.holder r := by
  unfold State.holder State.writer; rw [h]

theorem State.relayLane_acts (l : LaneId) (w : WriterId) (out : Bool) : s.Acts (s.relayLane l w out).1 :=
  (s.onLane_acts _ _ fun env r => closeOpen_keeps env r .handover).trans
    (State.onLane_acts _ _ _ fun env r => discardAndReplay_keeps env r ..)

@[simp] theorem State.relayLane_writers (l : LaneId) (w : WriterId) (out : Bool) :
    (s.relayLane l w out).1.writers = s.writers := by simp [State.relayLane]

theorem State.relay_acts {l : LaneId} (w : WriterId) (h : (s.writer w).role = .standby l) : s.Acts (s.relay l w) := by
  have exchanged (t : State) (acts : s.Acts t) (same : t.writers = s.writers) :
      s.Acts (t.exchangeRoles l w (s.holder (.onAir l))) := by
    rw [← State.holder_congr same]
    exact acts.trans (t.exchangeRoles_acts w (by rw [State.writer, same]; exact h))
  have announced (t : State) (acts : s.Acts t) (k : ReportKind) (lane : Option LaneId) (writer : Option WriterId)
      (v : Option Nat) : s.Acts (State.report (match s.holder (.onAir l) with
        | none => t.announceRole w
        | some o => (t.announceRole w).announceRole o) k lane writer v) := by
    refine acts.trans <| (t.announceRole_acts w).trans <| .trans ?_ (State.report_acts ..)
    split
    · exact .refl _
    · exact State.announceRole_acts ..
  unfold State.relay
  cases s.running l
  · exact announced _ (exchanged s (.refl s) rfl) ..
  · exact announced _ (exchanged _ (s.relayLane_acts ..) (s.relayLane_writers ..)) ..

/-! ### Messages (R21 to R33) -/

theorem State.reportSubstituted_acts (w : WriterId) (l : LaneId) (t : Text) : s.Acts (s.reportSubstituted w l t) := by
  unfold State.reportSubstituted
  split
  · exact .refl s
  · exact s.report_acts ..

@[simp] theorem State.reportSubstituted_writer (w : WriterId) (l : LaneId) (t : Text) (v : WriterId) :
    (s.reportSubstituted w l t).writer v = s.writer v := by
  unfold State.reportSubstituted; split <;> simp [State.report, State.writer]

/-- A message that is judged keeps the laws where its three acts do. -/
theorem State.judgeMessage_acts (w : WriterId) (kind : Byte) (bad : Option Reason)
    (suppressed onAir staged : State → LaneId → State) (h1 : ∀ l, s.Acts (suppressed s l))
    (h2 : ∀ l, s.Acts (onAir s l)) (h3 : ∀ l, (s.writer w).role = .standby l → s.Acts (staged s l)) :
    s.Acts (s.judgeMessage w kind bad suppressed onAir staged) := by
  unfold State.judgeMessage
  split
  · exact s.refuseWriter_acts ..
  · split
    · split
      · exact s.refuseWriter_acts ..
      · split
        · exact h1 _
        · exact h2 _
    · exact s.refuseWriter_acts ..
  · next l role =>
    split
    · exact s.refuseWriter_acts ..
    · exact h3 l role

theorem State.takeWord_acts (w : WriterId) (p : List Byte) : s.Acts (s.takeWord w p) := by
  unfold State.takeWord
  split
  · exact s.refuseWriter_acts ..
  · refine s.judgeMessage_acts w _ _ _ _ _ (fun l => ?_) (fun l => ?_) fun l standby => ?_
    · exact s.onLane_acts _ _ fun _ r => suppressWords_keeps r 1
    · exact (s.reportSubstituted_acts ..).trans (State.onLane_acts _ _ _ fun env r => layWord_keeps env r ..)
    · exact (s.reportSubstituted_acts ..).trans (State.stageWord_acts _ w (by simpa using standby) ..)

theorem State.takeBreak_acts (w : WriterId) (p : List Byte) : s.Acts (s.takeBreak w p) := by
  unfold State.takeBreak
  split
  · exact s.refuseWriter_acts ..
  · exact s.judgeMessage_acts w _ _ _ _ _ (fun _ => .refl s)
      (fun _ => s.onLane_acts _ _ fun env r => closeOpen_keeps env r .brk)
      fun l standby => s.setWriter_acts_of_standby w _ standby standby id id rfl

theorem State.takeSpeaker_acts (w : WriterId) (p : List Byte) : s.Acts (s.takeSpeaker w p) := by
  unfold State.takeSpeaker
  split
  · exact s.judgeMessage_acts w _ _ _ _ _ (fun _ => .refl s)
      (fun _ => s.onLane_acts _ _ fun env r => speakerChange_keeps env r ..)
      fun l standby => s.setWriter_acts_of_standby w _ standby standby id id rfl
  · exact s.refuseWriter_acts ..

theorem State.takeDelete_acts (w : WriterId) (p : List Byte) : s.Acts (s.takeDelete w p) := by
  unfold State.takeDelete
  split
  · exact s.judgeMessage_acts w _ _ _ _ _ (fun _ => .refl s)
      (fun _ => s.onLane_acts _ _ fun env r => laneDelete_keeps env r ..)
      fun l standby => s.unstage_acts w standby _
  · exact s.refuseWriter_acts ..

theorem State.takeTake_acts (w : WriterId) (p : List Byte) : s.Acts (s.takeTake w p) := by
  unfold State.takeTake
  split
  · exact s.refuseWriter_acts ..
  · split
    · next l standby => exact s.relay_acts w standby
    · exact s.refuseWriter_acts ..

theorem State.takeQuery_acts (w : WriterId) (p : List Byte) : s.Acts (s.takeQuery w p) := by
  unfold State.takeQuery
  split
  · exact s.refuseWriter_acts ..
  · exact s.announceRole_acts w

theorem State.takeMessage_acts (w : WriterId) (kind : Byte) (p : List Byte) : s.Acts (s.takeMessage w kind p) := by
  unfold State.takeMessage
  split_ifs
  · exact s.takeWord_acts w p
  · exact s.takeBreak_acts w p
  · exact s.takeSpeaker_acts w p
  · exact s.takeDelete_acts w p
  · exact s.takeTake_acts w p
  · exact s.takeQuery_acts w p
  · exact s.refuseWriter_acts ..

end Writers

end Sys2Proof.Machine
end

section
/-! PROOF. What the requests, the inserters' frames and the line keep of the laws, from that every command, and so O6, O7
and O8. -/

namespace Sys2Proof.Machine

/-! ## The store and the report unit -/

section Blocks

variable (s : State)

theorem State.resetStore_acts : s.Acts s.resetStore := by
  unfold State.resetStore
  dsimp only
  split
  · exact .refl s
  · exact (s.withStore_acts _).trans (State.report_acts ..)
  · exact (s.withStore_acts _).trans (State.report_acts ..)
  · exact (s.withStore_acts _).trans <| (State.onLane_acts _ _ _ abandonDeck_keeps).trans (State.report_acts ..)

theorem State.completeCommit_acts : s.Acts s.completeCommit := by
  unfold State.completeCommit
  split
  · exact (s.withStore_acts _).trans (State.report_acts ..)
  · exact .refl s

theorem State.completeCompare_acts : s.Acts s.completeCompare := by
  unfold State.completeCompare
  split
  · exact (s.withStore_acts _).trans (State.report_acts ..)
  · exact .refl s

theorem State.completePrepare_acts : s.Acts s.completePrepare := by
  unfold State.completePrepare
  split
  · exact (s.onLane_acts _ _ fun env r => fillDeck_keeps env r ..).trans <| (State.withStore_acts ..).trans <|
      (State.report_acts ..).trans (State.onLane_acts _ _ _ fun env r => afterPrepare_keeps env r ..)
  · exact .refl s

@[simp] theorem PerLane.get_map {α : Type} (f : α → α) (p : PerLane α) (l : LaneId) : (p.map f).get l = f (p.get l) := by
  cases l <;> rfl

@[simp] theorem PerWriter.get_map {α : Type} (f : α → α) (p : PerWriter α) (w : WriterId) :
    (p.map f).get w = f (p.get w) := by cases w <;> rfl

/-! R190: the counters alone fall to 0. -/

theorem State.zeroCounters_lane (l : LaneId) : s.zeroCounters.lane l = { s.lane l with counters := Counters.zero } :=
  PerLane.get_map ..

theorem State.zeroCounters_writer (w : WriterId) : s.zeroCounters.writer w = { s.writer w with overflows := 0 } :=
  PerWriter.get_map ..

theorem State.zeroCounters_link (k : Link) : s.zeroCounters.link k = (s.link k).zeroed := by
  cases k with
  | writer w => exact PerWriter.get_map ..
  | automation => rfl
  | inserter l => exact PerLane.get_map ..

theorem Counters.zero_within : Counters.zero.within := by unfold Counters.within; decide

theorem LinkState.zeroed_countsWithin (k : LinkState) : k.zeroed.countsWithin :=
  ⟨Nat.zero_le _, Nat.zero_le _, Nat.zero_le _, Nat.zero_le _⟩

theorem State.zeroCounters_acts : s.Acts s.zeroCounters where
  lanes l := by rw [State.zeroCounters_lane]; exact ⟨id, id, id, id, fun _ => Counters.zero_within, id⟩
  staging h w := by rw [State.zeroCounters_writer]; exact h w
  overflows _ w := by rw [State.zeroCounters_writer]; exact Nat.zero_le _
  lags h w := by rw [State.zeroCounters_writer]; exact h w
  roles h := by simpa only [State.rolesLawful, State.zeroCounters_writer] using h
  schedule := id
  reports := id
  styleLimit := id
  supervision := id
  links k := by rw [State.zeroCounters_link]; exact ⟨fun _ => (s.link k).zeroed_countsWithin, id⟩
  writerLinks w := by rw [State.zeroCounters_link]; exact id
  automation := rfl
  inserters l := by rw [State.zeroCounters_link]; rfl

/-! ENGINE-RESET (R37, R68, R85, R110, R169, R191). -/

theorem State.resetBlocks_lane (l : LaneId) : s.resetBlocks.lane l = (s.lane l).reset s.time.sfc := PerLane.get_map ..

theorem State.resetBlocks_writer (w : WriterId) : s.resetBlocks.writer w = (s.writer w).reset := PerWriter.get_map ..

theorem State.resetBlocks_acts : s.Acts s.resetBlocks :=
  { State.Acts.refl s with
    lanes := fun l => by
      rw [State.resetBlocks_lane]
      exact ⟨fun _ => Nat.zero_le _, fun _ => Nat.zero_le _, fun _ => Nat.zero_le _, fun _ => Nat.zero_le _, id, id⟩
    staging := fun _ w => by rw [State.resetBlocks_writer]; exact Nat.zero_le _
    overflows := fun h w => by rw [State.resetBlocks_writer]; exact h w
    lags := fun h w => by rw [State.resetBlocks_writer]; exact h w
    roles := fun _ => (State.rolesLawful_iff _).mpr
      ⟨fun u _ busy => absurd (congrArg Writer.role (s.resetBlocks_writer u)) busy,
        fun w _ => by rw [State.resetBlocks_writer]; exact ⟨rfl, rfl, rfl⟩⟩
    schedule := fun _ => ⟨Nat.zero_le _, trivial⟩ }

theorem State.resetReports_acts : s.Acts s.resetReports := by
  have emptied : s.Acts { s with reports := [], reportOverflow := false } :=
    { State.Acts.refl s with reports := fun _ => Nat.zero_le _ }
  exact emptied.trans (State.report_acts ..)

end Blocks

/-! ## Requests -/

section Handlers

variable (p : List Byte) (s : State)

theorem configureLaneRequest_acts : s.Acts (configureLaneRequest p s).1 := by
  unfold configureLaneRequest
  split
  · exact .refl s
  · next l _ =>
    split
    · exact .refl s
    · next after applied written =>
      split
      · exact .refl s
      · exact s.onLane_acts_of_lane l _ (applyParams_keeps (s.env l) { lane := s.lane l, out := [] } after
          (writeParam_inRange _ after _ _ applied written))

theorem configureWriterRequest_acts : s.Acts (configureWriterRequest p s).1 := by
  unfold configureWriterRequest
  split
  · exact .refl s
  · next w _ =>
    exact (State.Acts.refl s).setWriter w _ id id (fun _ => by rw [clamp_zero]; exact Nat.min_le_left ..) fun lawful =>
      State.rolesLawful_setWriter_of_role lawful w _ rfl (lawful.2.2 w)

theorem setStyleRequest_acts : s.Acts (setStyleRequest p s).1 := by
  unfold setStyleRequest
  dsimp only
  split
  · exact .refl s
  · split
    · exact .refl s
    · exact .of_same rfl rfl rfl rfl rfl rfl rfl

theorem setStyleLimitRequest_acts : s.Acts (setStyleLimitRequest p s).1 :=
  { State.Acts.refl s with
    styleLimit := fun _ => by
      simp only [setStyleLimitRequest, clamp_eq 1 16 _ (by decide)]
      omega }

theorem setFrameRateRequest_acts : s.Acts (setFrameRateRequest p s).1 := by
  unfold setFrameRateRequest
  split
  · exact .refl s
  · split
    · exact .refl s
    · exact .of_same rfl rfl rfl rfl rfl rfl rfl

theorem setSupervisionRequest_acts : s.Acts (setSupervisionRequest p s).1 := by
  have set : s.Acts { s with supervisionInterval := clamp 0 60 (byteAt p 0) } :=
    { State.Acts.refl s with
      supervision := fun _ => by simp only [clamp_zero]; exact Nat.min_le_left .. }
  unfold setSupervisionRequest
  dsimp only
  split
  · exact set.trans (.of_same rfl rfl rfl rfl rfl rfl rfl)
  · exact set.trans (State.restartSupervision_acts _)

theorem assignRequest_acts : s.Acts (assignRequest p s).1 := by
  unfold assignRequest
  split
  · exact (s.assignRole_acts ..).trans (announceChanges_acts ..)
  · exact .refl s

theorem handoverRequest_acts : s.Acts (handoverRequest p s).1 := by
  unfold handoverRequest
  split
  · exact .refl s
  · split
    · exact .refl s
    · next w holds => exact s.relay_acts w (State.holder_role holds)

theorem State.forgetFollowed_acts (l : LaneId) : s.Acts (s.forgetFollowed l) := by
  cases l with
  | lane0 => exact .refl s
  | lane1 => exact .of_same rfl rfl rfl rfl rfl rfl rfl

theorem startRequest_acts : s.Acts (startRequest p s).1 := by
  unfold startRequest
  split
  · exact .refl s
  · split
    · exact .refl s
    · exact (s.onLane_acts _ _ laneStart_keeps).trans (State.forgetFollowed_acts ..)

theorem stopRequest_acts : s.Acts (stopRequest p s).1 := by
  unfold stopRequest
  split
  · exact .refl s
  · split
    · exact (s.onLane_acts _ _ laneStop_keeps).trans (State.forgetFollowed_acts ..)
    · exact .refl s

theorem loadBufferRequest_acts : s.Acts (loadBufferRequest p s).1 := by
  unfold loadBufferRequest
  dsimp only
  split
  · exact .refl s
  · split_ifs
    · exact .refl s
    · exact .refl s
    · exact s.withStore_acts _

theorem commitRequest_acts : s.Acts (commitRequest p s).1 := by
  unfold commitRequest
  dsimp only
  split
  · exact .refl s
  · split_ifs
    · exact .refl s
    · exact .refl s
    · exact s.withStore_acts _

theorem compareRequest_acts : s.Acts (compareRequest p s).1 := by
  unfold compareRequest
  dsimp only
  split
  · exact .refl s
  · split_ifs
    · exact .refl s
    · exact .refl s
    · exact .refl s
    · exact s.withStore_acts _

theorem defineSegmentRequest_acts : s.Acts (defineSegmentRequest p s).1 := by
  unfold defineSegmentRequest
  dsimp only
  split_ifs
  · exact .refl s
  · exact .refl s
  · exact .refl s
  · exact s.withStore_acts _

theorem deleteSegmentRequest_acts : s.Acts (deleteSegmentRequest p s).1 := by
  unfold deleteSegmentRequest
  dsimp only
  split_ifs
  · exact .refl s
  · exact .refl s
  · exact s.withStore_acts _

theorem prepareRequest_acts : s.Acts (prepareRequest p s).1 := by
  unfold prepareRequest
  dsimp only
  split
  · exact .refl s
  · split
    · exact .refl s
    · split
      · exact .refl s
      · exact (s.withStore_acts _).trans (State.onLane_acts _ _ _ fun env r => startPreparing_keeps env r _)

theorem cancelCueRequest_acts : s.Acts (cancelCueRequest p s).1 :=
  { State.Acts.refl s with schedule := State.scheduleLawful_of_sublist List.filter_sublist }

theorem releaseRequest_acts : s.Acts (releaseRequest p s).1 := by
  unfold releaseRequest; dsimp only; exact s.withdraw_acts false

theorem clearCountersRequest_acts : s.Acts (clearCountersRequest p s).1 := s.zeroCounters_acts

theorem storeResetRequest_acts : s.Acts (storeResetRequest p s).1 := s.resetStore_acts

theorem pollRequest_acts : s.Acts (pollRequest p s).1 :=
  { State.Acts.refl s with reports := (List.drop_sublist ..).length_le.trans }

theorem statusRequest_acts : s.Acts (statusRequest p s).1 := by
  unfold statusRequest; split <;> exact .refl s

theorem engineResetRequest_acts : s.Acts (engineResetRequest p s).1 :=
  s.resetStore_acts.trans <| (State.resetBlocks_acts _).trans <| .trans (announceChanges_acts ..)
    (State.resetReports_acts _)

end Handlers

/-- Every request of the table acts within the laws. -/
theorem requestHandler_acts (kind : Byte) (handle : List Byte → State → State × Reply)
    (h : requestHandler kind = some handle) (p : List Byte) (s : State) : s.Acts (handle p s).1 := by
  unfold requestHandler at h
  split at h
  any_goals obtain rfl := Option.some.inj h
  · exact configureLaneRequest_acts p s
  · exact configureWriterRequest_acts p s
  · exact setStyleRequest_acts p s
  · exact setStyleLimitRequest_acts p s
  · exact setFrameRateRequest_acts p s
  · exact setSupervisionRequest_acts p s
  · exact assignRequest_acts p s
  · exact handoverRequest_acts p s
  · exact startRequest_acts p s
  · exact stopRequest_acts p s
  · exact loadBufferRequest_acts p s
  · exact commitRequest_acts p s
  · exact compareRequest_acts p s
  · exact defineSegmentRequest_acts p s
  · exact deleteSegmentRequest_acts p s
  · exact prepareRequest_acts p s
  · exact storeResetRequest_acts p s
  · exact cancelCueRequest_acts p s
  · exact releaseRequest_acts p s
  · exact pollRequest_acts p s
  · exact statusRequest_acts p s
  · exact clearCountersRequest_acts p s
  · exact engineResetRequest_acts p s
  · cases h

/-! ## Frames and replies -/

/-- A command keeps the laws of the part, with what waits on link A and the inserter links (R180). -/
structure State.Steps (s t : State) : Prop extends s.Keeps t where
  automation : (s.link .automation).waiting.length ≤ 4 → (t.link .automation).waiting.length ≤ 4
  inserters : ∀ l, (s.link (.inserter l)).waiting.length ≤ 2 → (t.link (.inserter l)).waiting.length ≤ 2

theorem State.Steps.trans {s t u : State} (h : s.Steps t) (k : t.Steps u) : s.Steps u where
  toKeeps := h.toKeeps.trans k.toKeeps
  automation := k.automation ∘ h.automation
  inserters l := k.inserters l ∘ h.inserters l

theorem State.Acts.steps {s t : State} (h : s.Acts t) : s.Steps t where
  toKeeps := h.toKeeps
  automation := h.automation ▸ id
  inserters l := h.inserters l ▸ id

theorem State.Steps.refl (s : State) : s.Steps s := (State.Acts.refl s).steps

/-- A reply sent on a link that is not a writer's. -/
theorem State.send_keeps (s : State) (k : Link) (f : TxFrame) (h : ∀ w, k ≠ .writer w) : s.Keeps (s.send k f) :=
  { State.Acts.refl s with
    links := fun j => by
      obtain rfl | other := eq_or_ne j k
      · rw [State.send, State.link_setLink_self]; exact ⟨id, id⟩
      · rw [State.send, State.link_setLink_of_ne s _ other]; exact .refl _
    writerLinks := fun w => by rw [State.send, State.link_setLink_of_ne s _ (h w).symm]; exact id }

/-- An act that finds link A with room, and is answered there. -/
theorem State.Acts.answer {s t : State} (h : s.Acts t) (room : (s.link .automation).waiting.length < 4) (kind : Byte)
    (r : Reply) : s.Steps (t.answer kind r) where
  toKeeps := h.toKeeps.trans (t.send_keeps .automation _ nofun)
  automation _ := by
    rw [← h.automation] at room
    rw [State.answer, State.send, State.link_setLink_self]
    simpa [LinkState.send] using room
  inserters l := by
    rw [← h.inserters l, State.answer, State.send,
      State.link_setLink_of_ne t _ (show Link.inserter l ≠ .automation from nofun)]
    exact id

/-- An act that finds an inserter link with room, and is answered there. -/
theorem State.Acts.reply {s t : State} (h : s.Acts t) (l : LaneId) (room : (s.link (.inserter l)).waiting.length < 2)
    (f : TxFrame) : s.Steps (t.send (.inserter l) f) where
  toKeeps := h.toKeeps.trans (t.send_keeps (.inserter l) f nofun)
  automation := by
    rw [← h.automation, State.send, State.link_setLink_of_ne t _ (show Link.automation ≠ .inserter l from nofun)]
    exact id
  inserters m := by
    obtain rfl | other := eq_or_ne m l
    · rw [← h.inserters m] at room
      rw [State.send, State.link_setLink_self]
      exact fun _ => by simpa [LinkState.send] using room
    · rw [← h.inserters m, State.send, State.link_setLink_of_ne _ _ fun same => other (Link.inserter.inj same)]
      exact id

/-! ### Link A -/

/-- A frame that is held back, refused or handed on and answered. -/
theorem State.serve_steps (s : State) (kind : Byte) (ok : Bool) (p : List Byte)
    (handle : List Byte → State → State × Reply) (acts : s.Acts (handle p s).1) :
    s.Steps (s.serve kind ok p handle) := by
  unfold State.serve
  split
  · exact .refl s
  · next free =>
    have room : (s.link .automation).waiting.length < 4 := Nat.not_le.mp fun full => free (decide_eq_true full)
    split
    · exact acts.answer room ..
    · exact (State.Acts.refl s).answer room ..

theorem State.request_steps (s : State) (kind : Byte) (p : List Byte) (handle : List Byte → State → State × Reply)
    (h : requestHandler kind = some handle) : s.Steps (s.request kind p handle) :=
  s.automationGood_acts.steps.trans (State.serve_steps _ _ _ _ _ (requestHandler_acts kind handle h p _))

theorem requestRow_steps (kind : Byte) (p : List Byte) (handle : List Byte → State → State × Reply) (s : State)
    (h : requestHandler kind = some handle) : s.Steps (requestRow kind p handle s) :=
  (s.frameClosed_acts .automation).steps.trans (State.request_steps _ kind p handle h)

theorem State.cueFrame_steps (s : State) (broadcast : Bool) (p : List Byte) : s.Steps (s.cueFrame broadcast p) := by
  have taken := takeCueFrame_acts s.automationGood p
  unfold State.cueFrame
  split
  · exact (s.automationGood_acts.trans taken).steps
  · exact s.automationGood_acts.steps.trans (State.serve_steps _ _ _ _ _ taken)

theorem cueRow_steps (kind : CueKind) (broadcast : Bool) (rest : List Byte) (s : State) :
    s.Steps (cueRow kind broadcast rest s) :=
  (s.frameClosed_acts .automation).steps.trans (State.cueFrame_steps ..)

theorem State.automationFrame_steps (s : State) (kind : Byte) (p : List Byte) : s.Steps (s.automationFrame kind p) := by
  unfold State.automationFrame
  split
  · exact s.cueFrame_steps false p
  · split
    · next handle h => exact s.request_steps kind p handle h
    · unfold State.refuseKind
      dsimp only
      refine s.automationGood_acts.steps.trans ?_
      split
      · exact .refl _
      · next free =>
        exact (State.Acts.refl _).answer (Nat.not_le.mp fun full => free (decide_eq_true full)) ..

/-! ### Inserters (R103 to R113, R180) -/

/-- A lane's own reply is one frame, and what makes it keeps the laws (R105). -/
theorem State.replyOwn_sends (s : State) (l : LaneId) (everyFrame : Bool) :
    ∃ t f, s.Acts t ∧ s.replyOwn l everyFrame = t.send (.inserter l) f := by
  unfold State.replyOwn
  dsimp only
  split
  · exact ⟨s.setLane l { s.lane l with display := { (s.lane l).display with changed := false } }, _,
      s.setLane_acts l _ ⟨id, id, id, id, id, id⟩, rfl⟩
  · exact ⟨s, _, .refl s, rfl⟩

/-- Lane 1's reply while FOLLOWING is one frame too (R107). -/
theorem State.replyFollowing_sends (s : State) :
    ∃ t f, s.Acts t ∧ s.replyFollowing = t.send (.inserter .lane1) f := by
  unfold State.replyFollowing
  dsimp only
  split
  · refine ⟨_, _, (s.setLane_acts .lane1
      { s.lane .lane1 with display := { (s.lane .lane1).display with changed := false } }
      ⟨id, id, id, id, id, id⟩).trans (.of_same ?_ ?_ ?_ ?_ ?_ ?_ ?_), rfl⟩ <;> rfl
  · exact ⟨s, _, .refl s, rfl⟩

/-- An inserter's request is answered with one frame (R104). -/
theorem State.takeRequest_sends (s : State) (l : LaneId) (word : TimecodeWord) :
    ∃ t f, s.Acts t ∧ s.takeRequest l word = t.send (.inserter l) f := by
  have checked := s.onLane_acts l (alignCheck s.time (timecodeFrames word s.time.rate)) fun env r => alignCheck_keeps env r ..
  unfold State.takeRequest
  dsimp only
  split
  · next follows =>
    obtain ⟨t, f, acts, sent⟩ := State.replyFollowing_sends
      (s.onLane l (alignCheck s.time (timecodeFrames word s.time.rate)))
    cases l with
    | lane0 => cases follows
    | lane1 => exact ⟨t, f, checked.trans acts, sent⟩
  · split
    · obtain ⟨t, f, acts, sent⟩ := State.replyOwn_sends
        ((s.onLane l (alignCheck s.time (timecodeFrames word s.time.rate))).onLane l serveImage) l _
      exact ⟨t, f, checked.trans ((State.onLane_acts _ _ _ serveImage_keeps).trans acts), sent⟩
    · obtain ⟨t, f, acts, sent⟩ := State.replyOwn_sends
        (s.onLane l (alignCheck s.time (timecodeFrames word s.time.rate))) l false
      exact ⟨t, f, checked.trans acts, sent⟩

theorem State.inserterFrame_steps (s : State) (l : LaneId) (kind : Byte) (p : List Byte) :
    s.Steps (s.inserterFrame l kind p) := by
  unfold State.inserterFrame
  dsimp only
  refine (s.countGood_acts (.inserter l)).steps.trans ?_
  split
  · exact .refl _
  · next free =>
    have room : ((s.countGood (.inserter l)).link (.inserter l)).waiting.length < 2 :=
      Nat.not_le.mp fun full => free (decide_eq_true full)
    split
    · exact (State.Acts.refl _).reply l room _
    · split
      · exact (State.Acts.refl _).reply l room _
      · obtain ⟨t, f, acts, sent⟩ := (s.countGood (.inserter l)).takeRequest_sends l (timecodeOf p)
        rw [sent]
        exact acts.reply l room f

/-! ### The line (R173 to R179) -/

theorem State.receiverEvent_steps (k : Link) (s : State) (e : RxEvent) : s.Steps (State.receiverEvent k s e) := by
  cases e with
  | abort =>
    exact (s.setLink_acts_of_waiting k { s.link k with aborts := saturate ((s.link k).aborts + 1) }
      ⟨fun ⟨good, checks, _, sizes⟩ => ⟨good, checks, saturate_le _, sizes⟩, id⟩ rfl).steps
  | checkError =>
    exact (s.setLink_acts_of_waiting k { s.link k with checks := saturate ((s.link k).checks + 1) }
      ⟨fun ⟨good, _, rest⟩ => ⟨good, saturate_le _, rest⟩, id⟩ rfl).steps
  | sizeError =>
    exact (s.setLink_acts_of_waiting k { s.link k with sizes := saturate ((s.link k).sizes + 1) }
      ⟨fun ⟨good, checks, aborts, _⟩ => ⟨good, checks, aborts, saturate_le _⟩, id⟩ rfl).steps
  | frame address kind p =>
    unfold State.receiverEvent State.filterFrame
    dsimp only
    split
    · cases k with
      | writer w => exact ((s.countGood_acts _).trans (State.takeMessage_acts ..)).steps
      | automation => exact s.automationFrame_steps kind p
      | inserter l => exact s.inserterFrame_steps l kind p
    · split
      · split
        · exact s.cueFrame_steps true p
        · exact s.restartSupervision_acts.steps
      · exact .refl s

theorem State.receive_steps (s : State) (k : Link) (line : List LineByte) : s.Steps (s.receive k line) :=
  (s.setLink_acts_of_waiting k { s.link k with rx := ((s.link k).rx.run line).1 }
    ⟨id, Receiver.run_body _ line⟩ rfl).steps.trans
    (foldl_related .refl .trans _ (State.receiverEvent_steps k) _ _)

/-- R179: a frame that is sent waits no longer. -/
theorem State.transmit_steps (s : State) (k : Link) : s.Steps (s.transmit k) := by
  unfold State.transmit
  split
  · exact .refl s
  · next f rest list =>
    have fewer : rest.Sublist (s.link k).waiting := list ▸ List.sublist_cons_self ..
    have link (j : Link) (P : LinkState → LinkState → Prop) (same : ∀ a, P a a)
        (sent : P (s.link k) { s.link k with waiting := rest, line := s.sentFrame f }) :
        P (s.link j) ((s.setLink k { s.link k with waiting := rest, line := s.sentFrame f }).link j) := by
      obtain rfl | other := eq_or_ne j k
      · rwa [State.link_setLink_self]
      · rw [State.link_setLink_of_ne s _ other]; exact same _
    exact { State.Acts.refl s with
      links := fun j => link j LinkState.Keeps .refl ⟨id, id⟩
      writerLinks := fun w => link _ (fun a b => a.writerLawful → b.writerLawful) (fun _ => id)
        (LinkState.writerLawful_of_sublist fewer)
      automation := link _ (fun a b => a.waiting.length ≤ 4 → b.waiting.length ≤ 4) (fun _ => id)
        fewer.length_le.trans
      inserters := fun l => link _ (fun a b => a.waiting.length ≤ 2 → b.waiting.length ≤ 2) (fun _ => id)
        fewer.length_le.trans }

/-! ## Commands -/

/-- At power-on every law holds (O12). -/
theorem State.powerOn_steps (s : State) (straps : BitVec 4) :
    s.Steps { State.powerOn straps with pending := s.pending } := by
  obtain ⟨lanes, staging, schedule, order, reports, writers, automation, inserters, bodies⟩ :=
    State.powerOn_withinCapacity straps
  obtain ⟨counters, overflows, counts⟩ := State.powerOn_countersWithin straps
  obtain ⟨params, lags, low, high, supervision⟩ := State.powerOn_paramsInRange straps
  exact
    { lanes := fun l =>
        have ⟨queue, provisional, recent, deck⟩ := lanes l
        ⟨fun _ => queue, fun _ => provisional, fun _ => recent, fun _ => deck, fun _ => counters l, fun _ => params l⟩
      staging := fun _ => staging
      overflows := fun _ => overflows
      lags := fun _ => lags
      roles := fun _ => State.powerOn_rolesLawful straps
      schedule := fun _ => ⟨schedule, order⟩
      reports := fun _ => reports
      styleLimit := fun _ => ⟨low, high⟩
      supervision := fun _ => supervision
      links := fun k => ⟨fun _ => counts k, fun _ => bodies k⟩
      writerLinks := fun w _ => writers w
      automation := fun _ => automation
      inserters := fun l _ => inserters l }

/-- Every command keeps every law. -/
theorem exec_steps (c : Instr) (s t : State) (h : exec c s = .next t) : s.Steps t := by
  have acts (u : State) (e : exec c s = .next u) (k : s.Acts u) : s.Steps t :=
    Host.Outcome.next.inj (e.symm.trans h) ▸ k.steps
  have steps (u : State) (e : exec c s = .next u) (k : s.Steps u) : s.Steps t :=
    Host.Outcome.next.inj (e.symm.trans h) ▸ k
  cases c with
  | powerOn straps => exact steps _ rfl (s.powerOn_steps straps)
  | pulseArrival tc => exact acts _ rfl (s.withTime_acts _)
  | pulseSupervisionExpiry | internalGeneratorExpiry =>
    refine acts _ rfl ?_
    split
    · exact s.withTime_acts _
    · exact .refl s
  | sameFrameWindowClose => exact acts _ rfl (.of_same rfl rfl rfl rfl rfl rfl rfl)
  | flushTimerExpiry l => exact acts _ rfl (s.onLane_acts _ _ flushExpiry_keeps)
  | correctionWindowExpiry l =>
    refine acts _ rfl ?_
    split
    · exact s.onLane_acts _ _ timeDue_keeps
    · exact .refl s
  | cueScheduleDue =>
    have left : s.Acts { s with schedule := (dueCues s.time.sfc s.schedule).2 } :=
      { State.Acts.refl s with schedule := State.scheduleLawful_of_sublist (List.dropWhile_sublist _) }
    exact acts _ (exec_cueScheduleDue s) (left.trans (foldl_acts (fun s (e : ScheduledCue) => s.executeCue e.cue) (fun s e => s.executeCue_acts e.cue) _ _))
  | automationSupervisionExpiry =>
    refine acts _ rfl ?_
    split
    · exact .refl s
    · split
      · exact s.withdraw_acts true
      · exact .refl s
  | word w p => exact acts _ rfl ((s.goodFrame_acts _).trans (State.takeWord_acts ..))
  | breakMark w p => exact acts _ rfl ((s.goodFrame_acts _).trans (State.takeBreak_acts ..))
  | speaker w p => exact acts _ rfl ((s.goodFrame_acts _).trans (State.takeSpeaker_acts ..))
  | delete w p => exact acts _ rfl ((s.goodFrame_acts _).trans (State.takeDelete_acts ..))
  | writerTake w p => exact acts _ rfl ((s.goodFrame_acts _).trans (State.takeTake_acts ..))
  | query w p => exact acts _ rfl ((s.goodFrame_acts _).trans (State.takeQuery_acts ..))
  | writerFrameRefused w kind p => exact acts _ rfl ((s.goodFrame_acts _).trans (State.takeMessage_acts ..))
  | inserterRequest l p | inserterFrameRefused l kind p =>
    exact steps _ rfl ((s.frameClosed_acts _).steps.trans (State.inserterFrame_steps ..))
  | commitCompletion => exact acts _ rfl s.completeCommit_acts
  | compareCompletion => exact acts _ rfl s.completeCompare_acts
  | prepareCompletion => exact acts _ rfl s.completePrepare_acts
  | transmitFrame k => exact steps _ rfl (s.transmit_steps k)
  | configureLane p | configureWriter p | setStyle p | setStyleLimit p | setFrameRate p | setSupervision p
  | assign p | handover p | start p | stop p | loadBuffer p | commit p | compare p | defineSegment p
  | deleteSegment p | prepare p | storeReset p | cancelCue p | release p | poll p | status p | clearCounters p
  | engineReset p =>
    exact steps _ rfl (requestRow_steps _ p _ s rfl)
  | automationFrameRefused kind p =>
    exact steps _ rfl ((s.frameClosed_acts .automation).steps.trans (State.automationFrame_steps ..))
  | freeze b rest | thaw b rest | hold b rest | resume b rest | stepCue b rest | clear b rest | join b rest
  | split b rest | takeCue b rest | advance b rest | endCue b rest =>
    exact steps _ rfl (cueRow_steps _ b rest s)
  | abort k line | checkError k line | sizeError k line | frameIgnored k line =>
    exact steps _ rfl (s.receive_steps k line)
  | flagArrival k => exact steps _ rfl (s.receive_steps k _)

/-- A step keeps every law. -/
theorem step_steps (s t : State) (h : step s = .next t) : s.Steps t := by
  cases queue : s.pending with
  | nil =>
    obtain rfl : s = t := by simpa [step, queue] using h
    exact .refl s
  | cons c rest =>
    have run : exec c { s with pending := rest } = .next t := by simpa [step, queue] using h
    have taken : s.Acts { s with pending := rest } := .of_same rfl rfl rfl rfl rfl rfl rfl
    exact taken.steps.trans (exec_steps c _ t run)

/-- Settles O6, from what every step keeps. -/
theorem capacitiesAreKept : Obligations.CapacitiesAreKept := by
  unfold Obligations.CapacitiesAreKept
  intro s t ⟨lanes, staging, schedule, order, reports, writers, automation, inserters, bodies⟩ h
  have kept := step_steps s t h
  obtain ⟨schedule', order'⟩ := kept.schedule ⟨schedule, order⟩
  refine ⟨fun l => ?_, kept.staging staging, schedule', order', kept.reports reports,
    fun w => kept.writerLinks w (writers w), kept.automation automation, fun l => kept.inserters l (inserters l),
    fun k => (kept.links k).body (bodies k)⟩
  obtain ⟨queue, provisional, recent, deck⟩ := lanes l
  exact ⟨(kept.lanes l).queue queue, (kept.lanes l).provisional provisional, (kept.lanes l).recent recent,
    (kept.lanes l).deck deck⟩

/-- Settles O7, from what every step keeps. -/
theorem numbersStayInRange : Obligations.NumbersStayInRange := by
  unfold Obligations.NumbersStayInRange
  intro s t ⟨⟨counters, overflows, links⟩, params, lags, low, high, supervision⟩ h
  have kept := step_steps s t h
  obtain ⟨low', high'⟩ := kept.styleLimit ⟨low, high⟩
  exact ⟨⟨fun l => (kept.lanes l).counters (counters l), kept.overflows overflows,
      fun k => (kept.links k).counts (links k)⟩,
    fun l => (kept.lanes l).params (params l), kept.lags lags, low', high', kept.supervision supervision⟩

/-- Settles O8, from what every step keeps. -/
theorem rolesStayLawful : Obligations.RolesStayLawful := by
  unfold Obligations.RolesStayLawful
  exact fun s t lawful h => (step_steps s t h).roles lawful

end Sys2Proof.Machine
end

section
/-! PROOF. The writers' messages (O24 to O29, O33, O34): what each row is once its frame is counted, what the check of the
role lets pass, and what a message then does. -/

namespace Sys2Proof.Machine

/-! ## The rows -/

section Rows

variable (s : State) (w : WriterId) (p : List Byte)

theorem exec_word : exec (.word w p) s = .next ((s.messaged w).takeWord w p) := by rw [← s.goodFrame_writer w]; rfl
theorem exec_breakMark : exec (.breakMark w p) s = .next ((s.messaged w).takeBreak w p) := by
  rw [← s.goodFrame_writer w]; rfl
theorem exec_speaker : exec (.speaker w p) s = .next ((s.messaged w).takeSpeaker w p) := by
  rw [← s.goodFrame_writer w]; rfl
theorem exec_delete : exec (.delete w p) s = .next ((s.messaged w).takeDelete w p) := by
  rw [← s.goodFrame_writer w]; rfl
theorem exec_writerTake : exec (.writerTake w p) s = .next ((s.messaged w).takeTake w p) := by
  rw [← s.goodFrame_writer w]; rfl
theorem exec_query : exec (.query w p) s = .next ((s.messaged w).takeQuery w p) := by rw [← s.goodFrame_writer w]; rfl
theorem exec_writerFrameRefused (kind : Byte) :
    exec (.writerFrameRefused w kind p) s = .next ((s.messaged w).takeMessage w kind p) := by
  rw [← s.goodFrame_writer w]; rfl

/-- The writer's link once its frame is counted. -/
theorem State.messaged_link_self : (s.messaged w).link (.writer w) = { s.link (.writer w) with
    rx := Receiver.inFrame, good := min ((s.link (.writer w)).good + 1) 65535 } := by
  simp [State.messaged, linksCounted, State.link]

theorem State.messaged_link_of_ne {k : Link} (h : k ≠ .writer w) : (s.messaged w).link k = s.link k :=
  Links.get_set_of_ne _ _ h

/-- R29, R179: what waits on a writer link after a REFUSED frame is made. -/
theorem LinkState.sendRefused_eq (k : LinkState) (f : TxFrame) : k.sendRefused f
    = { k with waiting := if k.countKind refusedKind < 4 then k.waiting ++ [f] else k.waiting } := by
  by_cases room : k.countKind refusedKind < 4
  · rw [if_pos room]; exact if_pos room
  · rw [if_neg room]; exact if_neg room

/-- A message that is refused changes the link alone (R29). -/
theorem State.messaged_refuseWriter (reason : Reason) (kind : Byte) :
    (s.messaged w).refuseWriter w reason kind
      = { s with links := linksRefused s.links w (BitVec.ofNat 8 reason.code) kind } := by
  rw [State.refuseWriter, State.messaged_link_self, LinkState.sendRefused_eq]
  simp only [State.setLink, State.messaged, linksCounted, Links.set_set]
  rfl

/-! ### QUERY (R27, R28) -/

/-- The ROLE frame of a writer, byte by byte (R182). -/
theorem roleFrame_eq (x : Writer) : roleFrame w x =
    { kind := 0x18
      payload := [BitVec.ofNat 8 (writerNumber w),
        match x.role with | .idle => 0 | .onAir _ => 1 | .standby _ => 2,
        match x.role with
          | .idle => 0xFF
          | .onAir l => BitVec.ofNat 8 (laneNumber l)
          | .standby l => BitVec.ofNat 8 (laneNumber l),
        BitVec.ofNat 8 x.lag, BitVec.ofNat 8 (x.lag / 256), BitVec.ofNat 8 x.staging.length] } := by
  unfold roleFrame
  cases x.role <;> rfl

end Rows

/-- Settles O33. -/
theorem queryIsAnswered : Obligations.QueryIsAnswered := by
  unfold Obligations.QueryIsAnswered
  intro s w
  rw [exec_query]
  show Host.Outcome.next ((s.messaged w).setLink _ (((s.messaged w).link _).sendRole _)) = _
  rw [State.messaged_link_self, roleFrame_eq]
  simp only [State.setLink, State.messaged, linksCounted, Links.set_set]
  rfl

/-! ## What the check of the role lets pass (R21, R24) -/

section Judged

variable {s : State} {w : WriterId} {l : LaneId} (kind : Byte) (bad : Option Reason)
  (suppressed onAir staged : State → LaneId → State)

theorem State.running_iff : s.running l = true ↔ (s.lane l).state = .running := decide_eq_true_iff

theorem State.running_of_stopped (h : (s.lane l).state = .stopped) : s.running l = false := by simp [State.running, h]

theorem State.judgeMessage_of_idle (role : (s.writer w).role = .idle) :
    s.judgeMessage w kind bad suppressed onAir staged = s.refuseWriter w .notAssigned kind := by
  simp [State.judgeMessage, role]

theorem State.judgeMessage_of_stopped (role : (s.writer w).role = .onAir l) (stopped : (s.lane l).state = .stopped) :
    s.judgeMessage w kind bad suppressed onAir staged = s.refuseWriter w .laneStopped kind := by
  simp [State.judgeMessage, role, State.running_of_stopped stopped]

theorem State.judgeMessage_of_bad (reason : Reason) (passes : s.passesRole w) :
    s.judgeMessage w kind (some reason) suppressed onAir staged = s.refuseWriter w reason kind := by
  obtain ⟨l, role | ⟨role, running⟩⟩ := passes
  · simp [State.judgeMessage, role]
  · simp [State.judgeMessage, role, State.running_iff.mpr running]

theorem State.judgeMessage_of_standby (role : (s.writer w).role = .standby l) :
    s.judgeMessage w kind none suppressed onAir staged = staged s l := by
  simp [State.judgeMessage, role]

theorem State.judgeMessage_of_suppressed (role : (s.writer w).role = .onAir l) (running : (s.lane l).state = .running)
    (h : s.suppresses l = true) : s.judgeMessage w kind none suppressed onAir staged = suppressed s l := by
  simp [State.judgeMessage, role, State.running_iff.mpr running, h]

theorem State.suppresses_iff (s : State) (l : LaneId) :
    s.suppresses l = true ↔ (s.lane l).source = .script ∨ (l = .lane1 ∧ s.following = true) := by
  cases l <;> simp [State.suppresses, State.follows]

theorem State.typesOn_notSuppressed (h : s.typesOn w l) : s.suppresses l = false := by
  obtain ⟨-, -, live, unled⟩ := h
  rw [← Bool.not_eq_true, State.suppresses_iff, live]
  simpa using unled

theorem State.judgeMessage_of_typesOn (h : s.typesOn w l) :
    s.judgeMessage w kind none suppressed onAir staged = onAir s l := by
  obtain ⟨role, running, -⟩ := id h
  simp [State.judgeMessage, role, State.running_iff.mpr running, State.typesOn_notSuppressed h]

end Judged

/-! ## Messages of the lengths that the table allows (R21) -/

section Messages

variable (s : State) (w : WriterId)

theorem State.takeWord_cons (flags : Byte) (text : Text) : s.takeWord w (flags :: text)
    = s.judgeMessage w wordKind (if text.length < 1 ∨ Config.wordMax < text.length then some .badWord else none)
        (fun s l => s.onLane l fun _ => suppressWords 1)
        (fun s l => (s.reportSubstituted w l text).onLane l fun env =>
          layWord env { text := text.map substitute, attach := flags.getLsbD 0 } env.sfc w (s.writer w).lag)
        (fun s l => (s.reportSubstituted w l text).stageWord w l (text.map substitute) (flags.getLsbD 0)) := rfl

theorem State.takeBreak_nil : s.takeBreak w []
    = s.judgeMessage w breakKind none (fun s _ => s) (fun s l => s.onLane l fun env => closeOpen env .brk)
        (fun s _ => s.setWriter w { s.writer w with marks := { (s.writer w).marks with brk := true } }) :=
  if_neg fun h => h rfl

theorem State.takeSpeaker_one (index : Byte) : s.takeSpeaker w [index]
    = s.judgeMessage w speakerKind none (fun s _ => s) (fun s l => s.onLane l fun env => speakerChange env w index)
        (fun s _ => s.setWriter w { s.writer w with marks := { (s.writer w).marks with speaker := some index } }) := rfl

theorem State.takeDelete_one (count : Byte) : s.takeDelete w [count]
    = s.judgeMessage w deleteKind (if count = 0 then some .badField else none) (fun s _ => s)
        (fun s l => s.onLane l fun env => laneDelete env w (min count.toNat 16))
        (fun s _ => s.setWriter w ((s.writer w).unstage (min count.toNat 16))) := rfl

end Messages

/-! ## Refusals (R21, R26, R29) -/

section Refusals

variable (s : State) (w : WriterId)

/-- A length that the table does not allow is refused before anything else is looked at. -/
theorem State.takeSpeaker_of_length {p : List Byte} (h : p.length ≠ 1) :
    s.takeSpeaker w p = s.refuseWriter w .badLength speakerKind := by
  unfold State.takeSpeaker
  split
  · exact absurd rfl h
  · rfl

theorem State.takeDelete_of_length {p : List Byte} (h : p.length ≠ 1) :
    s.takeDelete w p = s.refuseWriter w .badLength deleteKind := by
  unfold State.takeDelete
  split
  · exact absurd rfl h
  · rfl

/-- A kind that is none of the six is refused (R21). -/
theorem State.takeMessage_of_kind {kind : Byte} (h : isWriterKind kind = false) (p : List Byte) :
    s.takeMessage w kind p = s.refuseWriter w .badKind kind := by
  simp only [isWriterKind, decide_eq_false_iff_not, not_or] at h
  obtain ⟨h1, h2, h3, h4, h5, h6⟩ := h
  simp [State.takeMessage, h1, h2, h3, h4, h5, h6]

/-- A TAKE of a writer that is not STANDBY is refused (R26). -/
theorem State.takeTake_of_role (h : ∀ l, (s.writer w).role ≠ .standby l) :
    s.takeTake w [] = s.refuseWriter w .notStandby takeKind := by
  unfold State.takeTake
  cases role : (s.writer w).role with
  | standby l => exact absurd role (h l)
  | idle | onAir l => rfl

/-- A word without text or of more than 24 characters fails the check of the fields (R21). -/
theorem badWord_of_length {text : Text} (h : text = [] ∨ 24 < text.length) :
    (if text.length < 1 ∨ Config.wordMax < text.length then some Reason.badWord else none) = some .badWord := by
  rw [if_pos]
  obtain rfl | long := h
  · exact .inl Nat.zero_lt_one
  · exact .inr long

/-- A word of 1 to 24 characters passes it. -/
theorem goodWord_of_length {text : Text} (low : 1 ≤ text.length) (high : text.length ≤ 24) :
    (if text.length < 1 ∨ Config.wordMax < text.length then some Reason.badWord else none) = none := by
  rw [if_neg]; simp only [Config.wordMax]; omega

end Refusals

/-- Settles O34: each check in its order. -/
theorem refusedWriterFrames : Obligations.RefusedWriterFrames := by
  unfold Obligations.RefusedWriterFrames
  intro s w
  refine ⟨fun kind p unknown => ?_, ⟨?_, fun p => ⟨fun long => ⟨?_, ?_, ?_⟩, fun long => ⟨?_, ?_⟩⟩⟩,
    fun reason out => ?_, fun passes => ⟨fun flags text bad => ?_, ?_⟩, fun notStandby => ?_⟩
  · rw [exec_writerFrameRefused, State.takeMessage_of_kind _ w unknown, State.messaged_refuseWriter]; rfl
  · exact (exec_word s w []).trans (congrArg _ (s.messaged_refuseWriter w .badLength wordKind))
  · rw [exec_breakMark, State.takeBreak, if_pos long, State.messaged_refuseWriter]; rfl
  · rw [exec_writerTake, State.takeTake, if_pos long, State.messaged_refuseWriter]; rfl
  · rw [exec_query, State.takeQuery, if_pos long, State.messaged_refuseWriter]; rfl
  · rw [exec_speaker, State.takeSpeaker_of_length _ w long, State.messaged_refuseWriter]; rfl
  · rw [exec_delete, State.takeDelete_of_length _ w long, State.messaged_refuseWriter]; rfl
  · have refused (kind : Byte) (bad : Option Reason) (a b c : State → LaneId → State) :
        (s.messaged w).judgeMessage w kind bad a b c = { s with links := linksRefused s.links w reason kind } := by
      obtain ⟨role, rfl⟩ | ⟨l, role, stopped, rfl⟩ := out
      · rw [State.judgeMessage_of_idle (s := s.messaged w) kind _ _ _ _ role, State.messaged_refuseWriter]; rfl
      · rw [State.judgeMessage_of_stopped (s := s.messaged w) kind _ _ _ _ role stopped, State.messaged_refuseWriter]; rfl
    refine ⟨fun flags text => ?_, ?_, fun i => ?_, fun n => ?_⟩
    · rw [exec_word, State.takeWord_cons, refused]; rfl
    · rw [exec_breakMark, State.takeBreak_nil, refused]; rfl
    · rw [exec_speaker, State.takeSpeaker_one, refused]; rfl
    · rw [exec_delete, State.takeDelete_one, refused]; rfl
  · rw [exec_word, State.takeWord_cons, badWord_of_length bad,
      State.judgeMessage_of_bad (s := s.messaged w) _ _ _ _ _ passes, State.messaged_refuseWriter]
    rfl
  · rw [exec_delete, State.takeDelete_one, if_pos rfl,
      State.judgeMessage_of_bad (s := s.messaged w) _ _ _ _ _ passes, State.messaged_refuseWriter]
    rfl
  · rw [exec_writerTake, State.takeTake_of_role (s.messaged w) w notStandby, State.messaged_refuseWriter]; rfl

/-- Settles O26. -/
theorem onAirMessagesAreSuppressed : Obligations.OnAirMessagesAreSuppressed := by
  unfold Obligations.OnAirMessagesAreSuppressed
  intro s w l role running out
  have suppresses : (s.messaged w).suppresses l = true := (s.suppresses_iff l).mpr out
  have passed (kind : Byte) (a b c : State → LaneId → State) :
      (s.messaged w).judgeMessage w kind none a b c = a (s.messaged w) l :=
    State.judgeMessage_of_suppressed (s := s.messaged w) kind a b c role running suppresses
  refine ⟨fun flags text low high => ?_, ?_, fun i => ?_, fun n some => ?_⟩
  · rw [exec_word, State.takeWord_cons, goodWord_of_length low high, passed, State.onLane_of_quiet _ _ _ rfl]; rfl
  · rw [exec_breakMark, State.takeBreak_nil, passed]
  · rw [exec_speaker, State.takeSpeaker_one, passed]
  · rw [exec_delete, State.takeDelete_one, if_neg some, passed]

/-! ## A standby writer's messages (R30 to R34) -/

/-- Marks folded as Safety states it. -/
theorem foldedMarks_append (ms : List Marks) (m : Marks) : foldedMarks (ms ++ [m]) = (foldedMarks ms).fold m := by
  simp [foldedMarks, Marks.fold]

theorem foldedMarks_pair (m k : Marks) : foldedMarks [m, k] = m.fold k := by simp [foldedMarks, Marks.fold]

theorem foldMarks_eq (es : List Staged) : foldMarks es = foldedMarks (es.map Staged.marks) := by
  induction es using List.reverseRecOn with
  | nil => rfl
  | append_singleton es e ih =>
    rw [List.map_append, List.map_singleton, foldedMarks_append, ← ih]
    simp [foldMarks]

/-- The marks of some entries, folded with marks typed after them, field by field. -/
theorem foldedMarks_entries (es : List Staged) (m : Marks) : foldedMarks (es.map Staged.marks ++ [m]) =
    { brk := es.any (fun e => e.marks.brk) || m.brk
      speaker := ((es.map fun e => e.marks.speaker) ++ [m.speaker]).foldl (fun older newer => newer.or older) none } := by
  simp [foldedMarks, Function.comp_def]

theorem Writer.unstage_of_empty (x : Writer) (n : Nat) (h : x.staging = []) : x.unstage n = x := if_pos h

/-- R33: what is left of the staging list, and the marks of the entries removed, folded with the pending marks. -/
theorem Writer.unstage_of_filled (x : Writer) (n : Nat) (h : x.staging ≠ []) : x.unstage n =
    { x with
      staging := x.staging.take (x.staging.length - n)
      marks := foldedMarks ((x.staging.drop (x.staging.length - n)).map Staged.marks ++ [x.marks])
      overflowReported := if x.staging.take (x.staging.length - n) = [] then false else x.overflowReported } := by
  rw [foldedMarks_append, ← foldMarks_eq]
  exact if_neg h

/-- Settles O29: the marks of the entries removed are folded, and then the pending marks. -/
theorem stagedDelete : Obligations.StagedDelete := by
  unfold Obligations.StagedDelete
  intro s w l n role some
  have taken : exec (.delete w [n]) s = .next ((s.messaged w).setWriter w ((s.writer w).unstage (min n.toNat 16))) := by
    rw [exec_delete, State.takeDelete_one, if_neg some, State.judgeMessage_of_standby (s := s.messaged w) _ _ _ _ role]
    rfl
  rw [taken]
  dsimp only
  split
  · next empty => rw [Writer.unstage_of_empty _ _ empty, ← s.messaged_writer w w, State.setWriter_writer]
  · next filled =>
    rw [Writer.unstage_of_filled _ _ filled, foldedMarks_entries]

/-- The substituted form of a text (R22). -/
theorem map_substitute (t : Text) :
    t.map substitute = t.map fun c => if 0x21 ≤ c.toNat ∧ c.toNat ≤ 0x7E then c else 0x3F :=
  List.map_congr_left fun c _ => by simp only [substitute, printable_iff]

/-- How many characters it replaces. -/
theorem replacedCount_eq (t : Text) :
    replacedCount t = (t.filter fun c => decide (¬ (0x21 ≤ c.toNat ∧ c.toNat ≤ 0x7E))).length :=
  congrArg List.length (List.filter_congr fun c _ => by rw [Bool.eq_iff_iff, decide_eq_true_iff, ← printable_iff]; simp)

/-- A report that finds room (R187). -/
theorem State.report_of_room (s : State) (k : ReportKind) (l : Option LaneId) (w : Option WriterId) (v : Option Nat)
    (room : s.canReport) : s.report k l w v = { s with reports := s.reports ++ [s.note k l w v] } :=
  s.queueReport_of_room _ room

/-- SUBSTITUTED, where a character was replaced and there is room (R22). -/
theorem State.reportSubstituted_of_room (s : State) (w : WriterId) (l : LaneId) (t : Text) (room : s.canReport) :
    s.reportSubstituted w l t = { s with reports := s.reports ++ if replacedCount t = 0 then [] else
      [s.note .substituted (some l) (some w) (some (replacedCount t))] } := by
  unfold State.reportSubstituted
  split
  · rw [List.append_nil]
  · exact s.report_of_room _ _ _ _ room

/-- R31: a word is staged behind the others, with the pending marks. -/
theorem Writer.stage_of_room (x : Writer) (t : Text) (attach : Bool) (arrival : Nat) (room : x.staging.length < 64) :
    x.stage t attach arrival = ({ x with
      staging := x.staging ++ [{ text := t, attach := attach, arrival := arrival, marks := x.marks }]
      marks := Marks.empty }, false) := by
  unfold Writer.stage Config.stagingCapacity
  cases list : x.staging with
  | nil => rfl
  | cons e es => exact if_neg (by rw [list] at room; omega)

/-- R34: the 65th word pushes out the oldest, whose marks are folded onto the entry that is oldest then. -/
theorem Writer.stage_of_full (x : Writer) (t : Text) (attach : Bool) (arrival : Nat) {lost oldest : Staged}
    {rest : List Staged} (list : x.staging = lost :: oldest :: rest) (full : x.staging.length = 64) :
    x.stage t attach arrival = ({ x with
      staging := { oldest with marks := foldedMarks [lost.marks, oldest.marks] } :: rest
        ++ [{ text := t, attach := attach, arrival := arrival, marks := x.marks }]
      marks := Marks.empty, overflows := min (x.overflows + 1) 65535, overflowReported := true }, true) := by
  unfold Writer.stage Config.stagingCapacity
  rw [list] at full ⊢
  rw [foldedMarks_pair]
  exact if_pos full.ge

/-- What staging a word does to the part, by what it does to the writer (R31, R34). -/
theorem State.stageWord_eq (s : State) (w : WriterId) (l : LaneId) (t : Text) (attach : Bool) (x : Writer) (lost : Bool)
    (staged : (s.writer w).stage t attach s.time.sfc = (x, lost)) : s.stageWord w l t attach =
      if lost = true ∧ ¬ (s.writer w).overflowReported = true then
        (s.setWriter w x).report .stagingOverflow (some l) (some w) (some x.overflows)
      else s.setWriter w x := by
  simp only [State.stageWord, staged]

/-- The part after SUBSTITUTED is queued for a word of a writer, where a character of it was replaced (R22). -/
def State.substituting (s : State) (w : WriterId) (l : LaneId) (text : Text) : State :=
  { s.messaged w with reports := s.reports ++ if replacedCount text = 0 then [] else
      [s.note .substituted (some l) (some w) (some (replacedCount text))] }

/-- A standby writer's word: SUBSTITUTED first, then the staging (log entry 12). -/
theorem exec_word_of_standby (s : State) {w : WriterId} {l : LaneId} (role : (s.writer w).role = .standby l)
    (flags : Byte) (text : Text) (low : 1 ≤ text.length) (high : text.length ≤ 24) (room : s.canReport) (x : Writer)
    (lost : Bool) (staged : (s.writer w).stage (text.map substitute) (flags.getLsbD 0) s.time.sfc = (x, lost)) :
    exec (.word w (flags :: text)) s = .next
      (if lost = true ∧ ¬ (s.writer w).overflowReported = true then
        ((s.substituting w l text).setWriter w x).report .stagingOverflow (some l) (some w) (some x.overflows)
      else (s.substituting w l text).setWriter w x) := by
  rw [exec_word, State.takeWord_cons, goodWord_of_length low high,
    State.judgeMessage_of_standby (s := s.messaged w) _ _ _ _ role,
    State.reportSubstituted_of_room (s.messaged w) w l text room]
  exact congrArg _ (State.stageWord_eq (s.substituting w l text) w l _ _ x lost staged)

/-- Settles O25. -/
theorem standbyMessagesAreStaged : Obligations.StandbyMessagesAreStaged := by
  unfold Obligations.StandbyMessagesAreStaged
  intro s w l role
  have staged (kind : Byte) (a b c : State → LaneId → State) :
      (s.messaged w).judgeMessage w kind none a b c = c (s.messaged w) l :=
    State.judgeMessage_of_standby (s := s.messaged w) kind a b c role
  refine ⟨?_, fun i => ?_, fun flags text low high => ⟨fun room report => ?_, fun lost oldest rest list full report => ?_⟩⟩
  · rw [exec_breakMark, State.takeBreak_nil, staged]; rfl
  · rw [exec_speaker, State.takeSpeaker_one, staged]; rfl
  · rw [exec_word_of_standby s role flags text low high report _ false ((s.writer w).stage_of_room _ _ _ room),
      if_neg (by simp), ← map_substitute, ← replacedCount_eq]
    rfl
  · have first : s.canReport := by unfold State.canReport; omega
    rw [exec_word_of_standby s role flags text low high first _ true ((s.writer w).stage_of_full _ _ _ list full),
      ← map_substitute, ← replacedCount_eq]
    cases reported : (s.writer w).overflowReported with
    | true =>
      rw [if_neg (by simp), if_pos rfl, List.append_nil]
      rfl
    | false =>
      have second : (s.substituting w l text).canReport := by
        unfold State.canReport State.substituting
        dsimp only
        split <;> simp <;> omega
      rw [if_pos ⟨rfl, Bool.false_ne_true⟩, if_neg Bool.false_ne_true,
        State.report_of_room ((s.substituting w l text).setWriter w _) _ _ _ _ second]
      rfl

end Sys2Proof.Machine
end

section
/-! PROOF. The lane builder in the words of Sys2Proof/Safety.lean, where a unit that closes times nothing, and from that
O24 and O27. -/

namespace Sys2Proof.Machine

/-! ## Layout (R52, R53) -/

theorem Params.linesAllowed_eq (p : Params) : p.linesAllowed = p.lineLimit := rfl

/-- The first lines of a unit, as Safety states them. -/
theorem firstLines_eq (p : Params) (pendingLabel : Bool) (e : StyleEntry) (w : CapWord) :
    firstLines p (offeredLabel pendingLabel e) w = p.begun pendingLabel e.label w.text := by
  unfold Params.begun offeredLabel
  split
  · rfl
  · rfl

/-- The place of a word, as Safety states it. -/
theorem placeWord_eq (p : Params) (lines : List Text) (w : CapWord) : placeWord p lines w = p.placed lines w := by
  unfold placeWord Params.placed
  simp only [or_comm (a := lines.getLastD [] = []), List.length_append, Params.linesAllowed_eq]
  rfl

/-- The recent-word window after a word joins it (R38). -/
theorem joinWindow_eq (window : List Text) (t : Text) :
    joinWindow window t = (window ++ [t]).drop (window.length + 1 - 12) := by
  simp [joinWindow, Config.windowCapacity]

/-! ## A lane's builder at work -/

/-- A lane at work whose builder is now this one, with more reports queued. -/
def LaneRun.building (r : LaneRun) (b : Builder) (rs : List Report) : LaneRun :=
  { lane := { r.lane with builder := b }, out := r.out ++ rs }

/-- A builder of a lane from which a close of the open unit times nothing: a place is left for the unit on the provisional
list, and no unit there is due (R61 to R63). -/
def State.closable (s : State) (b : Builder) : Prop :=
  b.provisional.length + b.openUnit.toList.length ≤ 4 ∧ ∀ p ∈ b.provisional, s.time.sfc < p.windowEnd

/-- The builder after a word of a writer, with this arrival, is handed to it (R51 to R53, R60). -/
def State.laid (s : State) (l : LaneId) (w : WriterId) (word : CapWord) (arrival : Nat) (b : Builder) : Builder :=
  let p := (s.lane l).params
  let create (b : Builder) : Builder :=
    let begun := p.begun b.pendingLabel (s.styleEntry b.style).label word.text
    { b with
      openUnit := some
        { lane := l, lines := begun.1, words := [word], style := (s.styleEntry b.style).style, label := begun.2
          origin := .live w, firstArrival := some arrival, onset := some ((arrival : Int) - (s.writer w).lag)
          closeFrame := none, closeCause := none, cut := false }
      pendingLabel := false }
  let b := match b.openUnit with
    | none => create b
    | some u =>
      match p.placed u.lines word with
      | some lines => { b with openUnit := some { u with lines := lines, words := u.words ++ [word] } }
      | none => create (s.closedQuietly l .full b)
  { b with
    recent := (b.recent ++ [word.text]).drop (b.recent.length + 1 - 12)
    flush := some (s.time.sfc + p.flush) }

/-- Safety's replay of an entry applies its marks, and then lays its word. -/
theorem State.replayed_eq (s : State) (l : LaneId) (w : WriterId) (b : Builder) (e : Staged) : s.replayed l w b e
    = s.laid l w { text := e.text, attach := e.attach } e.arrival (s.marked l e.marks b) := rfl

section Quiet

variable (s : State) (l : LaneId) (r : LaneRun)

theorem State.closable_of_closesQuietly (h : s.closesQuietly l) : s.closable (s.lane l).builder := by
  obtain ⟨room, quiet, -⟩ := h
  refine ⟨?_, quiet⟩
  cases (s.lane l).builder.openUnit <;> simp <;> omega

/-- A close that times nothing (R57a). -/
theorem closeOpen_eq (params : r.lane.params = (s.lane l).params) (ahead : 0 < (s.lane l).params.correction)
    (quiet : s.closable r.lane.builder) (cause : CloseCause) :
    closeOpen (s.env l) cause r = r.building (s.closedQuietly l cause r.lane.builder) [] := by
  obtain ⟨room, quiet⟩ := quiet
  unfold State.closedQuietly LaneRun.building
  rw [List.append_nil]
  cases hu : r.lane.builder.openUnit with
  | none => simp only [closeOpen, hu]
  | some u =>
    rw [hu] at room
    have place : r.lane.builder.provisional.length < 4 := Nat.lt_of_succ_le room
    rw [closeOpen_of_quiet (s.env l) cause r u hu place quiet (params ▸ ahead), params]
    rfl

/-- A word that creates the open unit, and joins the window (R51, R53, R60, R38, R58). -/
theorem createUnit_placed (params : r.lane.params = (s.lane l).params) (w : WriterId) (word : CapWord) (arrival : Nat)
    (empty : r.lane.builder.openUnit = none) :
    wordPlaced (s.env l) word (createUnit (s.env l) word arrival w (s.writer w).lag r)
      = r.building (s.laid l w word arrival r.lane.builder) [] := by
  simp only [wordPlaced, createUnit, LaneRun.edit, LaneRun.building, State.laid, empty, newUnit, params, firstLines_eq,
    joinWindow_eq, List.append_nil]
  rfl

/-- A word that is laid where, if it closes a full unit, nothing is timed. -/
theorem layWord_eq (params : r.lane.params = (s.lane l).params) (w : WriterId) (word : CapWord) (arrival : Nat)
    (quiet : ∀ u, r.lane.builder.openUnit = some u → (s.lane l).params.placed u.lines word = none →
      s.closable r.lane.builder ∧ 0 < (s.lane l).params.correction) :
    layWord (s.env l) word arrival w (s.writer w).lag r = r.building (s.laid l w word arrival r.lane.builder) [] := by
  unfold layWord
  cases hu : r.lane.builder.openUnit with
  | none => exact createUnit_placed s l r params w word arrival hu
  | some u =>
    dsimp only
    rw [placeWord_eq, params]
    cases hp : (s.lane l).params.placed u.lines word with
    | some lines =>
      simp only [wordPlaced, LaneRun.edit, LaneRun.editBuilder, LaneRun.building, State.laid, hu, hp, params, joinWindow_eq,
        List.append_nil]
      rfl
    | none =>
      obtain ⟨closable, ahead⟩ := quiet u hu hp
      have closed : (s.closedQuietly l .full r.lane.builder).openUnit = none := by simp only [State.closedQuietly, hu]
      dsimp only
      rw [closeOpen_eq s l r params ahead closable,
        createUnit_placed s l (r.building (s.closedQuietly l .full r.lane.builder) []) params w word arrival closed]
      simp only [LaneRun.building, State.laid, closed, hu, hp, List.append_nil]

end Quiet

/-- A lane whose builder becomes another, with reports that find room. -/
theorem State.onLane_of_building (s : State) (l : LaneId) {act : LaneEnv → LaneRun → LaneRun} {b : Builder}
    {rs : List Report} (run : act (s.env l) { lane := s.lane l, out := [] }
      = LaneRun.building { lane := s.lane l, out := [] } b rs) (room : s.reports.length + rs.length ≤ 32) :
    s.onLane l act = { s.setLane l { s.lane l with builder := b } with reports := s.reports ++ rs } := by
  unfold State.onLane
  rw [run]
  exact State.queueReports_of_room (s.setLane l { s.lane l with builder := b }) rs room

theorem State.onLane_of_building_quiet (s : State) (l : LaneId) {act : LaneEnv → LaneRun → LaneRun} {b : Builder}
    (run : act (s.env l) { lane := s.lane l, out := [] } = LaneRun.building { lane := s.lane l, out := [] } b []) :
    s.onLane l act = s.setLane l { s.lane l with builder := b } := by
  rw [State.onLane_of_quiet _ _ _ (by rw [run]; rfl), run]
  rfl

/-! ## The on-air writer's words (R23, R51 to R53) -/

section Words

variable (s : State) {w : WriterId} {l : LaneId}

/-- Printable text is its own substituted form (R22). -/
theorem substitute_of_printable {text : Text} (shown : ∀ c ∈ text, 0x21 ≤ c.toNat ∧ c.toNat ≤ 0x7E) :
    text.map substitute = text := by
  rw [map_substitute]
  exact (List.map_congr_left fun c hc => if_pos (shown c hc)).trans (List.map_id text)

theorem replacedCount_of_printable {text : Text} (shown : ∀ c ∈ text, 0x21 ≤ c.toNat ∧ c.toNat ≤ 0x7E) :
    replacedCount text = 0 := by
  rw [replacedCount_eq, List.length_eq_zero_iff, List.filter_eq_nil_iff]
  exact fun c hc hidden => of_decide_eq_true hidden (shown c hc)

/-- A printable word of the on-air writer, where a close that it brings about times nothing. -/
theorem exec_word_of_typesOn (types : s.typesOn w l) (flags : Byte) (text : Text) (low : 1 ≤ text.length)
    (high : text.length ≤ 24) (shown : ∀ c ∈ text, 0x21 ≤ c.toNat ∧ c.toNat ≤ 0x7E)
    (quiet : ∀ u, (s.lane l).builder.openUnit = some u →
      (s.lane l).params.placed u.lines { text := text, attach := flags.getLsbD 0 } = none → s.closesQuietly l) :
    exec (.word w (flags :: text)) s = .next ((s.messaged w).setLane l { s.lane l with
      builder := s.laid l w { text := text, attach := flags.getLsbD 0 } s.time.sfc (s.lane l).builder }) := by
  have kept : (s.messaged w).reportSubstituted w l text = s.messaged w := if_pos (replacedCount_of_printable shown)
  have laid := layWord_eq s l { lane := s.lane l, out := [] } rfl w { text := text, attach := flags.getLsbD 0 } s.time.sfc
    fun u hu full => ⟨s.closable_of_closesQuietly l (quiet u hu full), (quiet u hu full).2.2⟩
  rw [exec_word, State.takeWord_cons, goodWord_of_length low high,
    State.judgeMessage_of_typesOn (s := s.messaged w) _ _ _ _ types, kept, substitute_of_printable shown]
  exact congrArg _ (State.onLane_of_building_quiet (s.messaged w) l laid)

variable (word : CapWord) (e : StyleEntry)

theorem State.styleEntry_of_some {i : Nat} (h : s.styles[i]? = some e) : s.styleEntry i = e := by
  rw [State.styleEntry, h, Option.getD_some]

/-- The builder after a word that arrives now, where no unit is open (R51, R53). -/
theorem State.laid_of_none (styled : s.styleEntry (s.lane l).builder.style = e)
    (empty : (s.lane l).builder.openUnit = none) : s.laid l w word s.time.sfc (s.lane l).builder
      = s.afterWord l word.text (s.begunUnit l w e word) (s.lane l).builder.provisional false := by
  simp only [State.laid, empty, styled]
  rfl

/-- The builder after a word that the open unit takes (R51, R52). -/
theorem State.laid_of_placed {u : CaptionUnit} (opened : (s.lane l).builder.openUnit = some u) {lines : List Text}
    (placed : (s.lane l).params.placed u.lines word = some lines) :
    s.laid l w word s.time.sfc (s.lane l).builder = s.afterWord l word.text
      { u with lines := lines, words := u.words ++ [word] } (s.lane l).builder.provisional
      (s.lane l).builder.pendingLabel := by
  simp only [State.laid, opened, placed]
  rfl

/-- The builder after a word that finds the open unit full (R52). -/
theorem State.laid_of_full (styled : s.styleEntry (s.lane l).builder.style = e) {u : CaptionUnit}
    (opened : (s.lane l).builder.openUnit = some u) (full : (s.lane l).params.placed u.lines word = none) :
    s.laid l w word s.time.sfc (s.lane l).builder = s.afterWord l word.text (s.begunUnit l w e word)
      ((s.lane l).builder.provisional ++ [s.closedUnit l u .full]) false := by
  simp only [State.laid, opened, full, State.closedQuietly, styled]
  rfl

/-- A printable word of the on-air writer that the open unit takes. -/
theorem exec_word_of_placed (types : s.typesOn w l) (flags : Byte) (text : Text) (low : 1 ≤ text.length)
    (high : text.length ≤ 24) (shown : ∀ c ∈ text, 0x21 ≤ c.toNat ∧ c.toNat ≤ 0x7E) {u : CaptionUnit}
    (opened : (s.lane l).builder.openUnit = some u) {lines : List Text}
    (placed : (s.lane l).params.placed u.lines { text := text, attach := flags.getLsbD 0 } = some lines) :
    exec (.word w (flags :: text)) s = .next ((s.messaged w).setLane l { s.lane l with
      builder := s.afterWord l text
        { u with lines := lines, words := u.words ++ [{ text := text, attach := flags.getLsbD 0 }] }
        (s.lane l).builder.provisional (s.lane l).builder.pendingLabel }) := by
  rw [← s.laid_of_placed { text := text, attach := flags.getLsbD 0 } opened placed]
  refine exec_word_of_typesOn s types flags text low high shown fun v hv notPlaced => ?_
  obtain rfl : u = v := Option.some.inj (opened.symm.trans hv)
  exact absurd (placed.symm.trans notPlaced) (by simp)

end Words

section Placing

variable {p : Params} {done : List Text} {current : Text} (word : CapWord)

/-- The current line with a word behind it: joined, or after a space (R52). -/
theorem length_joined : (current ++ (if word.attach = true then [] else [0x20]) ++ word.text).length
    = current.length + (if word.attach = true then 0 else 1) + word.text.length := by
  rw [List.length_append, List.length_append]
  split <;> rfl

/-- A word that fits the current line (R52). -/
theorem Params.placed_of_fits (filled : current ≠ [])
    (fits : current.length + (if word.attach = true then 0 else 1) + word.text.length ≤ p.width) :
    p.placed (done ++ [current]) word
      = some (done ++ [current ++ (if word.attach = true then [] else [0x20]) ++ word.text]) := by
  rw [← length_joined] at fits
  simp only [Params.placed, List.getLastD_concat, List.dropLast_concat, filled, or_false, if_pos fits]

/-- A word that does not fit it begins a new line where one is left; otherwise the unit is full (R52). -/
theorem Params.placed_of_long (filled : current ≠ [])
    (long : p.width < current.length + (if word.attach = true then 0 else 1) + word.text.length) :
    p.placed (done ++ [current]) word
      = if done.length + 1 < p.linesAllowed then some (done ++ [current] ++ [word.text]) else none := by
  rw [← length_joined] at long
  simp only [Params.placed, List.getLastD_concat, filled, or_false, if_neg (Nat.not_le.mpr long)]
  rw [List.length_append, List.length_singleton]

end Placing

/-- Settles O24: what the word does to the lane is `State.laid`, read off in each place that a word can take. -/
theorem wordIsLaid : Obligations.WordIsLaid := by
  unfold Obligations.WordIsLaid
  intro s w l flags text e types low high shown entry
  have styled := s.styleEntry_of_some e entry
  refine ⟨fun empty => ?_, fun u done current opened lines filled => ⟨fun fits => ?_, fun long => ⟨fun room => ?_,
    fun full quiet => ?_⟩⟩⟩
  · rw [exec_word_of_typesOn s types flags text low high shown fun u hu => absurd (empty.symm.trans hu) (by simp),
      s.laid_of_none _ e styled empty]
  · exact exec_word_of_placed s types flags text low high shown opened (lines ▸ Params.placed_of_fits _ filled fits)
  · exact exec_word_of_placed s types flags text low high shown opened
      (lines ▸ (Params.placed_of_long _ filled long).trans (if_pos room))
  · have notPlaced : (s.lane l).params.placed u.lines { text := text, attach := flags.getLsbD 0 } = none :=
      lines ▸ (Params.placed_of_long _ filled long).trans (if_neg (Nat.not_lt.mpr full))
    rw [exec_word_of_typesOn s types flags text low high shown fun _ _ _ => quiet,
      s.laid_of_full _ e styled opened notPlaced]

end Sys2Proof.Machine
end

section
/-! PROOF. Marks and closes of the lane builder (R57, R61 to R63, R73 to R83), and from them O27. -/

namespace Sys2Proof.Machine

/-! ## Marks, where nothing is timed (R57) -/

section Marks

variable (s : State) (l : LaneId) (r : LaneRun) (b : Builder)

theorem LaneRun.building_building (rs qs : List Report) (c : Builder) :
    (r.building b rs).building c qs = r.building c (rs ++ qs) := by
  simp only [LaneRun.building, List.append_assoc]

theorem LaneRun.building_self : r.building r.lane.builder [] = r := by
  rw [LaneRun.building, List.append_nil]

theorem State.closedQuietly_of_none (cause : CloseCause) (empty : b.openUnit = none) : s.closedQuietly l cause b = b := by
  rw [State.closedQuietly, empty]

theorem State.closedQuietly_of_some (cause : CloseCause) {u : CaptionUnit} (opened : b.openUnit = some u) :
    s.closedQuietly l cause b = { b with
      openUnit := none, flush := none, provisional := b.provisional ++ [s.closedUnit l u cause] } := by
  rw [State.closedQuietly, opened]

@[simp] theorem State.closedQuietly_recent (cause : CloseCause) : (s.closedQuietly l cause b).recent = b.recent := by
  unfold State.closedQuietly
  split <;> rfl

/-- The units that a builder holds: the open one and the provisional ones. A close keeps their number. -/
def Builder.held (b : Builder) : Nat := b.provisional.length + b.openUnit.toList.length

@[simp] theorem State.closedQuietly_held (cause : CloseCause) : (s.closedQuietly l cause b).held = b.held := by
  unfold State.closedQuietly Builder.held
  split
  · rfl
  · next u opened => simp [opened]

/-- No provisional unit of a builder is due (R62). -/
def State.notDue (s : State) (b : Builder) : Prop := ∀ p ∈ b.provisional, s.time.sfc < p.windowEnd

variable {b}

theorem State.closedQuietly_notDue (ahead : 0 < (s.lane l).params.correction) (cause : CloseCause) (quiet : s.notDue b) :
    s.notDue (s.closedQuietly l cause b) := by
  cases opened : b.openUnit with
  | none => rwa [State.closedQuietly_of_none s l b cause opened]
  | some u =>
    rw [State.closedQuietly_of_some s l b cause opened]
    intro p hp
    obtain hp | rfl := by simpa using hp
    · exact quiet p hp
    · exact Nat.lt_add_of_pos_right ahead

theorem State.closedQuietly_closable (ahead : 0 < (s.lane l).params.correction) (cause : CloseCause)
    (quiet : s.closable b) : s.closable (s.closedQuietly l cause b) :=
  ⟨(s.closedQuietly_held l b cause).trans_le quiet.1, s.closedQuietly_notDue l ahead cause quiet.2⟩

variable (w : WriterId)

/-- A speaker change, where the close times nothing (R57). -/
theorem speakerChange_eq (params : r.lane.params = (s.lane l).params) (ahead : 0 < (s.lane l).params.correction)
    (quiet : s.closable r.lane.builder) (i : Byte) :
    speakerChange (s.env l) w i r = r.building (s.marked l { brk := false, speaker := some i } r.lane.builder)
      (s.limitReports l w [{ brk := false, speaker := some i }]) := by
  have limit : (s.env l).styleLimit = s.styleLimit := rfl
  unfold speakerChange
  rw [closeOpen_eq s l r params ahead quiet, limit]
  simp only [State.limitReports, List.flatMap_cons, List.flatMap_nil, List.append_nil, State.marked, LaneRun.building,
    Bool.false_eq_true, if_false]
  split
  · rw [List.append_nil]; rfl
  · rfl

/-- Each mark is reported at most once (R57). -/
theorem State.limitReports_length (ms : List Marks) : (s.limitReports l w ms).length ≤ ms.length := by
  unfold State.limitReports
  induction ms with
  | nil => exact Nat.le_refl 0
  | cons m ms ih =>
    rw [List.flatMap_cons, List.length_append, List.length_cons, Nat.add_comm]
    refine Nat.add_le_add ih ?_
    split
    · exact Nat.zero_le 1
    · split
      · exact Nat.zero_le 1
      · exact Nat.le_refl 1

/-- Marks applied, where their closes time nothing (R45, R57). -/
theorem applyMarks_eq (params : r.lane.params = (s.lane l).params) (ahead : 0 < (s.lane l).params.correction)
    (quiet : s.closable r.lane.builder) (m : Marks) :
    applyMarks (s.env l) w m r = r.building (s.marked l m r.lane.builder) (s.limitReports l w [m]) := by
  obtain ⟨brk, speaker⟩ := m
  have broken : (if brk = true then closeOpen (s.env l) .brk r else r)
      = r.building (s.marked l { brk := brk, speaker := none } r.lane.builder) [] := by
    cases brk with
    | true => exact closeOpen_eq s l r params ahead quiet .brk
    | false => exact r.building_self.symm
  have quiet' : s.closable (s.marked l { brk := brk, speaker := none } r.lane.builder) := by
    cases brk with
    | true => exact s.closedQuietly_closable l ahead .brk quiet
    | false => exact quiet
  unfold applyMarks
  dsimp only
  rw [broken]
  cases speaker with
  | none => rfl
  | some i =>
    exact (speakerChange_eq s l (r.building (s.marked l { brk := brk, speaker := none } r.lane.builder) []) w params ahead
      quiet' i).trans (r.building_building _ _ _ _)

end Marks

/-! ## Timing a live unit that is not late (R73 to R82) -/

section Timing

/-- Composition does not look at the builder (R96). -/
theorem Lane.composed_withBuilder (ln : Lane) (b : Builder) :
    ({ ln with builder := b } : Lane).composed = { ln.composed with builder := b } := by
  unfold Lane.composed
  cases ln.engine.queue with
  | nil => rfl
  | cons t rest =>
    dsimp only
    split
    · rfl
    · rfl

@[simp] theorem Lane.composed_builder (ln : Lane) : ln.composed.builder = ln.builder := by
  unfold Lane.composed
  cases ln.engine.queue with
  | nil => rfl
  | cons t rest =>
    dsimp only
    split
    · rfl
    · rfl

theorem CaptionUnit.with_onset (u : CaptionUnit) {on : Int} (onset : u.onset = some on) :
    { u with onset := some on } = u := by
  rw [← onset]

theorem baseFrame_eq (p : Params) (on : Int) (now : Nat) :
    ((baseFrame p on now : Nat) : Int) = max (on + p.delay - p.lead) now := by
  unfold baseFrame desiredFrame
  omega

/-- What R74 to R79 make of a unit is what Safety says of it. -/
theorem timedUnit_timedAfter (p : Params) (rate : Rate) (e : Engine) (now : Nat) (u : CaptionUnit) {on : Int}
    (onset : u.onset = some on) : timedAfter p rate now e.record u on (timedUnit p rate e now u) := by
  have base := baseFrame_eq p on now
  unfold timedAfter timedUnit
  simp only [onset, Option.getD_some]
  refine ⟨(u.with_onset onset).symm, base, ?_, ?_, ?_⟩
  · unfold catchUp lateness
    cases e.record <;> rfl
  · unfold effectiveMinimum compressed
    cases catchUp p (lateness e.record (baseFrame p on now)) <;> rfl
  · unfold releaseFrame
    cases e.record <;> rfl

/-- A unit that fits behind the record is not late beyond Λmax (R75, R80). -/
theorem State.lateness_of_fits (s : State) (l : LaneId) {on : Int} (fits : s.fitsBehind l on) :
    lateness (s.lane l).engine.record (baseFrame (s.lane l).params on s.time.sfc) ≤ (s.lane l).params.lamMax := by
  have base := baseFrame_eq (s.lane l).params on s.time.sfc
  cases record : (s.lane l).engine.record with
  | none => exact Nat.zero_le _
  | some x =>
    have behind := fits.2 x record
    show x.release + x.minimum - _ ≤ _
    omega

/-- A live unit that finds a place in the queue and is not late beyond Λmax joins the queue, and composition follows. -/
theorem timeUnit_of_fits (env : LaneEnv) (now : Nat) (u : CaptionUnit) (r : LaneRun) {on : Int} {v : WriterId}
    (onset : u.onset = some on) (live : u.origin = .live v) (room : r.lane.engine.queue.length < 32)
    (within : lateness r.lane.engine.record (baseFrame r.lane.params on now) ≤ r.lane.params.lamMax) :
    timeUnit env now u r
      = { r with lane := (r.lane.queueing (timedUnit r.lane.params env.rate r.lane.engine now u)).composed } := by
  have base : (timedUnit r.lane.params env.rate r.lane.engine now u).base = baseFrame r.lane.params on now := by
    simp only [timedUnit, onset, Option.getD_some]
  unfold timeUnit
  dsimp only
  rw [cutIfLate_of_within env _ r (base ▸ within), appendTimed_of_room env now _ r room,
    joinScriptWords_of_live u _ v live, compose_eq]
  rfl

/-- Nothing is due where the first provisional unit is not (R62). -/
theorem timeDue_of_head (env : LaneEnv) (r : LaneRun) {p : Provisional} {ps : List Provisional}
    (list : r.lane.builder.provisional = p :: ps) (ahead : env.sfc < p.windowEnd) : timeDue env r = r := by
  unfold timeDue
  dsimp only
  rw [list, List.takeWhile_cons_of_neg (by simpa using ahead), List.dropWhile_cons_of_neg (by simpa using ahead),
    List.foldl_nil, ← list]
  rfl

end Timing

/-! ## A close onto a full provisional list (R63) -/

section Forced

variable (env : LaneEnv) {head : Provisional} {on : Int} {v : WriterId} (onset : head.unit.onset = some on)
  (live : head.unit.origin = .live v)
include onset live

/-- The head is timed, and PROVISIONAL_OVERFLOW is queued. -/
theorem forceHead_of_fits (r : LaneRun) {left : List Provisional} (list : r.lane.builder.provisional = head :: left)
    (room : r.lane.engine.queue.length < 32)
    (within : lateness r.lane.engine.record (baseFrame r.lane.params on env.sfc) ≤ r.lane.params.lamMax) :
    forceHead env r =
      { lane := ((r.lane.provisionally left).queueing
          (timedUnit r.lane.params env.rate r.lane.engine env.sfc head.unit)).composed
        out := r.out ++ [{ kind := .provisionalOverflow, lane := some env.lane, writer := head.unit.writer
                           value := some (max 1 (head.windowEnd - env.sfc)), stamp := env.sfc }] } := by
  unfold forceHead
  rw [list]
  dsimp only
  rw [timeUnit_of_fits env env.sfc head.unit (r.editBuilder fun b => { b with provisional := left }) onset live room within]
  rfl

/-- The closed unit joins the list behind what the head leaves. -/
theorem closeOpen_of_full (cause : CloseCause) (r : LaneRun) {u : CaptionUnit} {next : Provisional}
    {left : List Provisional} (opened : r.lane.builder.openUnit = some u)
    (list : r.lane.builder.provisional = head :: next :: left) (full : r.lane.builder.provisional.length = 4)
    (quiet : env.sfc < next.windowEnd) (room : r.lane.engine.queue.length < 32)
    (within : lateness r.lane.engine.record (baseFrame r.lane.params on env.sfc) ≤ r.lane.params.lamMax) :
    closeOpen env cause r =
      { lane := (({ r.lane with builder := { r.lane.builder with
            openUnit := none, flush := none
            provisional := next :: left ++ [{ unit := { u with closeFrame := some env.sfc, closeCause := some cause }
                                              windowEnd := env.sfc + r.lane.params.correction }] } } : Lane).queueing
          (timedUnit r.lane.params env.rate r.lane.engine env.sfc head.unit)).composed
        out := r.out ++ [{ kind := .provisionalOverflow, lane := some env.lane, writer := head.unit.writer
                           value := some (max 1 (head.windowEnd - env.sfc)), stamp := env.sfc }] } := by
  have capacity : Config.provisionalCapacity
      ≤ (r.editBuilder fun b => { b with openUnit := none, flush := none }).lane.builder.provisional.length := full.ge
  unfold closeOpen
  simp only [opened]
  rw [if_pos capacity,
    forceHead_of_fits env onset live (r.editBuilder fun b => { b with openUnit := none, flush := none }) list room within]
  rw [timeDue_of_head env _ (by simp only [LaneRun.editBuilder, LaneRun.edit, Lane.composed_builder]; rfl) quiet]
  simp only [LaneRun.editBuilder, LaneRun.edit, Lane.composed_builder, ← Lane.composed_withBuilder]
  rfl

end Forced

/-- Settles O27. -/
theorem breakAndSpeaker : Obligations.BreakAndSpeaker := by
  unfold Obligations.BreakAndSpeaker
  refine ⟨fun s w l types quiet => ?_,
    fun s w l u head left on v types opened list full quiet ahead onset live fits room => ?_⟩
  · have closable := s.closable_of_closesQuietly l quiet
    obtain ⟨-, -, ahead⟩ := quiet
    have broken : exec (.breakMark w []) s = .next ((s.messaged w).setLane l { s.lane l with
        builder := s.closedQuietly l .brk (s.lane l).builder }) := by
      rw [exec_breakMark, State.takeBreak_nil, State.judgeMessage_of_typesOn (s := s.messaged w) _ _ _ _ types]
      exact congrArg _ (State.onLane_of_building_quiet (s.messaged w) l
        (closeOpen_eq s l { lane := s.lane l, out := [] } rfl ahead closable .brk))
    refine ⟨fun u opened => ?_, fun empty => ?_, fun i room => ?_⟩
    · rw [broken, State.closedQuietly_of_some s l _ _ opened]
      rfl
    · rw [broken, State.closedQuietly_of_none s l _ _ empty]
      exact congrArg _ ((s.messaged w).setLane_lane l)
    · have limits : s.reports.length + (s.limitReports l w [{ brk := false, speaker := some i }]).length ≤ 32 :=
        (Nat.add_le_add_left (s.limitReports_length l w _) _).trans room
      rw [exec_speaker, State.takeSpeaker_one, State.judgeMessage_of_typesOn (s := s.messaged w) _ _ _ _ types,
        State.onLane_of_building (s.messaged w) l
          (speakerChange_eq s l { lane := s.lane l, out := [] } w rfl ahead closable i) limits]
      simp only [State.limitReports, List.flatMap_cons, List.flatMap_nil, List.append_nil, State.marked,
        Bool.false_eq_true, if_false, State.messaged_reports]
      split
      · rw [List.append_nil]; rfl
      · rfl
  · obtain ⟨next, rest, rfl⟩ := List.exists_cons_of_length_pos (l := left) (by rw [list, List.length_cons] at full; omega)
    have forced := closeOpen_of_full (s.env l) onset live .brk { lane := s.lane l, out := [] } opened list full
      (quiet next rfl) fits.1 (s.lateness_of_fits l fits)
    refine ⟨timedUnit (s.lane l).params s.time.rate (s.lane l).engine s.time.sfc head.unit,
      timedUnit_timedAfter _ _ _ _ _ onset, ?_⟩
    rw [exec_breakMark, State.takeBreak_nil, State.judgeMessage_of_typesOn (s := s.messaged w) _ _ _ _ types,
      State.onLane, State.messaged_env, State.messaged_lane, forced]
    exact congrArg _ (State.queueReports_of_room _ _ room)

end Sys2Proof.Machine
end

section
/-! PROOF. DELETE of the on-air writer (R65 to R67): words go one by one from the last unit of the builder, and from that
O28. -/

namespace Sys2Proof.Machine

/-! ## The last unit of a builder (R65) -/

/-- The newest unit within reach: the open unit, or the last of the provisional list. -/
def Builder.lastUnit (b : Builder) : Option CaptionUnit :=
  match b.openUnit with
  | some u => some u
  | none => b.provisional.getLast?.map Provisional.unit

/-- The builder whose newest unit is now this one. -/
def Builder.withLast (b : Builder) (v : CaptionUnit) : Builder :=
  match b.openUnit with
  | some _ => { b with openUnit := some v }
  | none =>
    { b with provisional := b.provisional.dropLast ++ b.provisional.getLast?.toList.map fun q => { q with unit := v } }

/-- The builder after its newest unit, now this one, is removed; its label is due again (R66). -/
def Builder.withoutLast (b : Builder) (v : CaptionUnit) : Builder :=
  match b.openUnit with
  | some _ => { b with openUnit := none, flush := none, pendingLabel := b.pendingLabel || v.label.isSome }
  | none => { b with provisional := b.provisional.dropLast, pendingLabel := b.pendingLabel || v.label.isSome }

/-- The recent-word window loses its newest entries (R39). -/
def Builder.forget (b : Builder) (n : Nat) : Builder := { b with recent := b.recent.take (b.recent.length - n) }

section Last

variable (b : Builder) (u v : CaptionUnit) (m n : Nat)

theorem Builder.lastUnit_withLast (last : b.lastUnit = some u) : (b.withLast v).lastUnit = some v := by
  unfold Builder.withLast
  cases opened : b.openUnit with
  | some _ => rfl
  | none =>
    rw [Builder.lastUnit, opened] at last
    obtain ⟨q, hq, -⟩ := Option.map_eq_some_iff.mp last
    simp [Builder.lastUnit, hq]

theorem Builder.withLast_withLast : (b.withLast u).withLast v = b.withLast v := by
  unfold Builder.withLast
  cases opened : b.openUnit with
  | some _ => rfl
  | none => obtain empty | ⟨ps, q, list⟩ := List.eq_nil_or_concat' b.provisional <;> simp [*]

theorem Builder.withoutLast_withLast : (b.withLast u).withoutLast v = b.withoutLast v := by
  unfold Builder.withLast Builder.withoutLast
  cases opened : b.openUnit with
  | some _ => rfl
  | none => obtain empty | ⟨ps, q, list⟩ := List.eq_nil_or_concat' b.provisional <;> simp [*]

@[simp] theorem Builder.forget_lastUnit : (b.forget n).lastUnit = b.lastUnit := rfl

theorem Builder.forget_withLast : (b.forget n).withLast v = (b.withLast v).forget n := by
  unfold Builder.withLast
  cases opened : b.openUnit <;> simp [Builder.forget, opened]

theorem Builder.forget_withoutLast : (b.forget n).withoutLast v = (b.withoutLast v).forget n := by
  unfold Builder.withoutLast
  cases opened : b.openUnit <;> simp [Builder.forget, opened]

theorem Builder.forget_forget : (b.forget m).forget n = b.forget (m + n) := by
  simp only [Builder.forget, List.length_take, List.take_take]
  congr 2
  omega

theorem CaptionUnit.shortenedTo_shortenedTo (p : Params) (ws xs : List CapWord) :
    (u.shortenedTo p ws).shortenedTo p xs = u.shortenedTo p xs := rfl

end Last

/-! ## One word, and several words (R65, R66) -/

section Words

variable (p : Params) (b : Builder) (u : CaptionUnit)

/-- The newest word goes: of a unit that keeps words, or with its unit. -/
theorem deleteOne_eq (last : b.lastUnit = some u) (ws : List CapWord) (x : CapWord) (words : u.words = ws ++ [x]) :
    deleteOne p b = some (if ws = [] then (b.withoutLast u).forget 1 else (b.withLast (u.shortenedTo p ws)).forget 1) := by
  have shortened : u.shortened p = if ws = [] then none else some (u.shortenedTo p ws) := by
    unfold CaptionUnit.shortened
    rw [words, List.dropLast_concat]
    cases ws <;> rfl
  unfold Builder.lastUnit at last
  unfold deleteOne Builder.withoutLast Builder.withLast Builder.forget
  simp only [List.dropLast_eq_take]
  cases opened : b.openUnit with
  | some v =>
    rw [opened] at last
    obtain rfl : v = u := Option.some.inj last
    by_cases kept : ws = []
    · simp only [shortened, if_pos kept]
    · simp only [shortened, if_neg kept]
  | none =>
    rw [opened] at last
    obtain ⟨q, hq, rfl⟩ := Option.map_eq_some_iff.mp last
    by_cases kept : ws = []
    · simp only [hq, shortened, if_pos kept]
    · simp only [hq, shortened, if_neg kept, Option.toList_some, List.map_singleton]

theorem deleteOne_of_empty (empty : b.lastUnit = none) : deleteOne p b = none := by
  unfold Builder.lastUnit at empty
  unfold deleteOne
  cases opened : b.openUnit with
  | some v => rw [opened] at empty; exact absurd empty (by simp)
  | none =>
    rw [opened] at empty
    rw [Option.map_eq_none_iff.mp empty]

theorem deleteWords_succ (n : Nat) {c : Builder} (one : deleteOne p b = some c) :
    deleteWords p (1 + n) b = deleteWords p n c := by
  rw [Nat.add_comm, deleteWords, one]

theorem deleteWords_of_empty (n : Nat) (empty : b.lastUnit = none) : deleteWords p n b = (b, n) := by
  cases n with
  | zero => rfl
  | succ n => rw [deleteWords, deleteOne_of_empty p b empty]

/-- The last unit loses some of its words and keeps others (R66). -/
theorem deleteWords_shorten (n : Nat) (last : b.lastUnit = some u) {ws gone : List CapWord} (words : u.words = ws ++ gone)
    (kept : ws ≠ []) (some : gone ≠ []) :
    deleteWords p (gone.length + n) b = deleteWords p n ((b.withLast (u.shortenedTo p ws)).forget gone.length) := by
  induction gone generalizing ws n with
  | nil => exact absurd rfl some
  | cons x gone ih =>
    by_cases one : gone = []
    · subst one
      rw [List.length_singleton, deleteWords_succ p b n (deleteOne_eq p b u last ws x words), if_neg kept]
    · rw [List.length_cons, Nat.add_assoc, ih (1 + n) (ws := ws ++ [x]) (by simpa using words) (by simp) one,
        deleteWords_succ p _ n (deleteOne_eq p _ (u.shortenedTo p (ws ++ [x]))
          (((b.withLast _).forget_lastUnit _).trans (b.lastUnit_withLast u _ last)) ws x rfl), if_neg kept,
        CaptionUnit.shortenedTo_shortenedTo, Builder.forget_withLast, Builder.withLast_withLast,
        Builder.forget_forget]

/-- The last unit loses all its words, and goes with them (R66). -/
theorem deleteWords_remove (n : Nat) (last : b.lastUnit = some u) (filled : u.words ≠ []) :
    deleteWords p (u.words.length + n) b = deleteWords p n ((b.withoutLast u).forget u.words.length) := by
  obtain ⟨x, gone, words⟩ := List.exists_cons_of_ne_nil filled
  by_cases one : gone = []
  · subst one
    rw [words, List.length_singleton, deleteWords_succ p b n (deleteOne_eq p b u last [] x words), if_pos rfl]
  · rw [words, List.length_cons, Nat.add_assoc,
      deleteWords_shorten p b u (1 + n) last (ws := [x]) words (by simp) one,
      deleteWords_succ p _ n (deleteOne_eq p _ (u.shortenedTo p [x])
        (((b.withLast _).forget_lastUnit _).trans (b.lastUnit_withLast u _ last)) [] x rfl), if_pos rfl,
      Builder.forget_withoutLast, Builder.withoutLast_withLast, Builder.forget_forget]
    rfl

end Words

/-! ## Whole units (R65, R66) -/

section Units

variable (p : Params) (b : Builder)

/-- The builder whose last units, from the open one back, go whole. -/
theorem Builder.reached_cons (q : Provisional) (gone : List Provisional) :
    wordsOf (b.reached (q :: gone)) = wordsOf (b.reached gone) + q.unit.words.length := by
  simp [wordsOf, Builder.reached]
  omega

/-- One more unit goes: the last that the others left. -/
theorem Builder.withoutUnits_cons (before gone : List Provisional) (q : Provisional) :
    ((b.withoutUnits gone (before ++ [q]) (wordsOf (b.reached gone))).withoutLast q.unit).forget q.unit.words.length
      = b.withoutUnits (q :: gone) before (wordsOf (b.reached (q :: gone))) := by
  rw [Builder.reached_cons]
  simp [Builder.withoutUnits, Builder.withoutLast, Builder.forget, Builder.reached, List.take_take]
  exact ⟨by omega, by ac_rfl⟩

/-- The open unit and the last provisional units go whole. -/
theorem deleteWords_units (holds : b.unitsHoldWords) (n : Nat) {before gone : List Provisional}
    (list : b.provisional = before ++ gone) : deleteWords p (wordsOf (b.reached gone) + n) b
      = deleteWords p n (b.withoutUnits gone before (wordsOf (b.reached gone))) := by
  induction gone generalizing before n with
  | nil =>
    rw [List.append_nil] at list
    obtain ⟨openUnit, provisional, recent, flush, style, pendingLabel⟩ := b
    obtain rfl : provisional = before := list
    cases openUnit with
    | none => simp [Builder.withoutUnits, Builder.reached, wordsOf]
    | some u =>
      have words : wordsOf (Builder.reached ⟨some u, provisional, recent, flush, style, pendingLabel⟩ [])
          = u.words.length := by simp [wordsOf, Builder.reached]
      rw [words, deleteWords_remove p _ u n rfl (holds.1 u rfl)]
      simp [Builder.withoutUnits, Builder.withoutLast, Builder.forget, Builder.reached]
  | cons q gone ih =>
    have filled : q.unit.words ≠ [] := holds.2 q (by simp [list])
    have last : (b.withoutUnits gone (before ++ [q]) (wordsOf (b.reached gone))).lastUnit = some q.unit := by
      simp [Builder.lastUnit, Builder.withoutUnits]
    rw [Builder.reached_cons, Nat.add_assoc, ih _ (before := before ++ [q]) (by simpa using list),
      deleteWords_remove p _ q.unit n last filled, Builder.withoutUnits_cons, Builder.reached_cons]

/-- A unit behind those that go whole loses some of its words (R66). -/
theorem Builder.withoutUnits_shortened (before gone : List Provisional) (q : Provisional) (v : CaptionUnit) (m n : Nat) :
    ((b.withoutUnits gone (before ++ [q]) m).withLast v).forget n
      = b.withoutUnits gone (before ++ [{ q with unit := v }]) (m + n) := by
  simp [Builder.withoutUnits, Builder.withLast, Builder.forget, List.take_take]
  omega

end Units

section Delete

variable (s : State) {w : WriterId} {l : LaneId} (types : s.typesOn w l) {n : Byte} (positive : n ≠ 0) {b : Builder}
include types positive

/-- A DELETE of the on-air writer (R65). -/
theorem exec_delete_of_typesOn :
    exec (.delete w [n]) s = .next ((s.messaged w).onLane l fun env => laneDelete env w (min n.toNat 16)) := by
  rw [exec_delete, State.takeDelete_one, if_neg positive, State.judgeMessage_of_typesOn (s := s.messaged w) _ _ _ _ types]

/-- All the words are within reach. -/
theorem exec_delete_of_reached
    (words : deleteWords (s.lane l).params (min n.toNat 16) (s.lane l).builder = (b, 0)) :
    exec (.delete w [n]) s = .next ((s.messaged w).setLane l { s.lane l with builder := b }) := by
  rw [exec_delete_of_typesOn s types positive]
  exact congrArg _ (State.onLane_of_building_quiet (s.messaged w) l (by
    simp only [laneDelete, State.messaged_lane, words, if_pos]
    rfl))

/-- Some words are out of reach (R67). -/
theorem exec_delete_of_late {late : Nat} (out : late ≠ 0) (room : s.canReport)
    (words : deleteWords (s.lane l).params (min n.toNat 16) (s.lane l).builder = (b, late)) :
    exec (.delete w [n]) s = .next { (s.messaged w).setLane l { s.lane l with
        builder := b, counters := { (s.lane l).counters with late := min ((s.lane l).counters.late + late) 65535 } } with
      reports := s.reports ++ [s.note .lateCorrection (some l) (some w) (some late)] } := by
  rw [exec_delete_of_typesOn s types positive]
  simp only [State.onLane, laneDelete, State.messaged_lane, words, if_neg out]
  exact congrArg _ (State.queueReports_of_room _ _ room)

end Delete

/-- Settles O28. -/
theorem onAirDelete : Obligations.OnAirDelete := by
  unfold Obligations.OnAirDelete
  intro s w l n types positive holds
  dsimp only
  have asked : min n.toNat 16 ≠ 0 := by
    have : n.toNat ≠ 0 := fun zero => positive (BitVec.eq_of_toNat_eq zero)
    omega
  refine ⟨fun u ws gone opened words kept count => ?_, fun before gone q ws taken list words kept took count => ?_,
    fun before gone list count => ?_, fun far room => ?_⟩
  · have last : (s.lane l).builder.lastUnit = some u := by simp only [Builder.lastUnit, opened]
    have taken : gone ≠ [] := fun nothing => asked (by rw [← count, nothing]; rfl)
    have shortened := deleteWords_shorten (s.lane l).params (s.lane l).builder u 0 last words kept taken
    rw [Nat.add_zero, count] at shortened
    rw [exec_delete_of_reached s types positive shortened]
    simp only [Builder.withLast, opened, Builder.forget]
  · have last : ((s.lane l).builder.withoutUnits gone (before ++ [q])
        (wordsOf ((s.lane l).builder.reached gone))).lastUnit = some q.unit := by
      simp [Builder.lastUnit, Builder.withoutUnits]
    have shortened := (deleteWords_units (s.lane l).params _ holds (taken.length + 0) (before := before ++ [q])
      (by rw [list, List.append_assoc]; rfl)).trans (deleteWords_shorten _ _ q.unit 0 last words kept took)
    rw [Builder.withoutUnits_shortened, Nat.add_zero, count] at shortened
    exact exec_delete_of_reached s types positive shortened
  · have removed := deleteWords_units (s.lane l).params _ holds 0 list
    rw [Nat.add_zero, count] at removed
    exact exec_delete_of_reached s types positive removed
  · obtain ⟨late, asks⟩ := Nat.exists_eq_add_of_lt far
    rw [Nat.add_assoc] at asks
    have out : min n.toNat 16 - wordsOf ((s.lane l).builder.reached (s.lane l).builder.provisional) = late + 1 := by omega
    have left := (deleteWords_units (s.lane l).params _ holds (late + 1) (List.nil_append _).symm).trans
      (deleteWords_of_empty _ _ (late + 1) rfl)
    rw [← asks] at left
    rw [exec_delete_of_late s types positive (Nat.succ_ne_zero late) room left, out]

end Sys2Proof.Machine
end

section
/-! PROOF. ROLE frames and the exchange of roles (R18, R19, R41, R47, R48), and from them O30. -/

namespace Sys2Proof.Machine

/-! ## ROLE frames (R19, R28, R179) -/

section Announce

variable (s : State) (w : WriterId)

@[simp] theorem State.announceRole_writer (u : WriterId) : (s.announceRole w).writer u = s.writer u := rfl

@[simp] theorem State.announceRole_link_self :
    (s.announceRole w).link (.writer w) = (s.link (.writer w)).sendRole (roleFrame w (s.writer w)) :=
  State.link_setLink_self ..

theorem State.announceRole_link_of_ne {k : Link} (h : k ≠ .writer w) : (s.announceRole w).link k = s.link k :=
  State.link_setLink_of_ne _ _ h

/-- ROLE frames to the writers of a list whose role has changed. -/
def announceAmong (before : PerWriter Writer) (ws : List WriterId) (s : State) : State :=
  ws.foldl (fun s w => if (before.get w).role = (s.writer w).role then s else s.announceRole w) s

variable (before : PerWriter Writer) (ws : List WriterId)

theorem announceAmong_cons : announceAmong before (w :: ws) s
    = announceAmong before ws (if (before.get w).role = (s.writer w).role then s else s.announceRole w) := rfl

/-- They are made on the links, and nothing else changes. -/
theorem announceAmong_eq : announceAmong before ws s = { s with links := (announceAmong before ws s).links } := by
  induction ws generalizing s with
  | nil => rfl
  | cons w ws ih =>
    rw [announceAmong_cons, ih]
    split <;> rfl

theorem announceAmong_link_of_ne {k : Link} (h : ∀ w ∈ ws, k ≠ .writer w) :
    (announceAmong before ws s).link k = s.link k := by
  induction ws generalizing s with
  | nil => rfl
  | cons w ws ih =>
    obtain ⟨other, rest⟩ := List.forall_mem_cons.mp h
    rw [announceAmong_cons, ih _ rest]
    split
    · rfl
    · exact s.announceRole_link_of_ne w other

/-- A writer of the list gets a ROLE frame where its role has changed. -/
theorem announceAmong_link (distinct : ws.Nodup) (u : WriterId) (listed : u ∈ ws) :
    (announceAmong before ws s).link (.writer u) = if (before.get u).role = (s.writer u).role then s.link (.writer u)
      else (s.link (.writer u)).sendRole (roleFrame u (s.writer u)) := by
  induction ws generalizing s with
  | nil => exact absurd listed List.not_mem_nil
  | cons w ws ih =>
    obtain ⟨new, distinct⟩ := List.nodup_cons.mp distinct
    rw [announceAmong_cons]
    obtain rfl | later := List.mem_cons.mp listed
    · rw [announceAmong_link_of_ne _ _ _ fun v hv same => new (by rw [Link.writer.inj same]; exact hv)]
      split
      · rfl
      · exact s.announceRole_link_self u
    · have other : (Link.writer u) ≠ .writer w := fun same => new (Link.writer.inj same ▸ later)
      rw [ih _ distinct later]
      split
      · rfl
      · rw [State.announceRole_writer, State.announceRole_link_of_ne s w other]

theorem mem_allWriters (u : WriterId) : u ∈ allWriters := by cases u <;> decide

/-- R19: ROLE frames are made on the links, and nothing else changes. -/
theorem announceChanges_eq : announceChanges before s = { s with links := (announceChanges before s).links } :=
  announceAmong_eq s before allWriters

/-- R19: each writer whose role has changed gets a ROLE frame. -/
theorem announceChanges_link (u : WriterId) : (announceChanges before s).link (.writer u) =
    if (before.get u).role = (s.writer u).role then s.link (.writer u)
    else (s.link (.writer u)).sendRole (roleFrame u (s.writer u)) :=
  announceAmong_link s before allWriters (by decide) u (mem_allWriters u)

theorem announceChanges_link_of_ne {k : Link} (h : ∀ w, k ≠ .writer w) :
    (announceChanges before s).link k = s.link k :=
  announceAmong_link_of_ne s before allWriters fun w _ => h w

end Announce

/-! ## The exchange of roles (R41, R47) -/

/-- The part after the roles are exchanged and both writers told. -/
def State.exchanged (s : State) (l : LaneId) (w : WriterId) (out : Option WriterId) : State :=
  match out with
  | none => (s.exchangeRoles l w none).announceRole w
  | some o => ((s.exchangeRoles l w (some o)).announceRole w).announceRole o

section Exchanged

variable (s : State) (l : LaneId) {w : WriterId} {out : Option WriterId}

/-- The exchange touches the writers and the links alone. -/
theorem State.exchanged_eq (w : WriterId) (out : Option WriterId) : s.exchanged l w out
    = { s with writers := (s.exchanged l w out).writers, links := (s.exchanged l w out).links } := by
  cases out <;> rfl

theorem State.exchanged_writers (w : WriterId) (out : Option WriterId) :
    (s.exchanged l w out).writers = (s.exchangeRoles l w out).writers := by
  cases out <;> rfl

theorem State.exchanged_link_of_ne {k : Link} (hw : k ≠ .writer w) (ho : ∀ o, out = some o → k ≠ .writer o) :
    (s.exchanged l w out).link k = s.link k := by
  cases out with
  | none => exact State.announceRole_link_of_ne _ w hw
  | some o => exact (State.announceRole_link_of_ne _ o (ho o rfl)).trans (State.announceRole_link_of_ne _ w hw)

theorem State.exchanged_link (other : out ≠ some w) (u : WriterId) (told : u = w ∨ out = some u) :
    (s.exchanged l w out).link (.writer u)
      = (s.link (.writer u)).sendRole (roleFrame u ((s.exchanged l w out).writer u)) := by
  have apart {u v : WriterId} (h : u ≠ v) : Link.writer u ≠ .writer v := fun same => h (Link.writer.inj same)
  obtain rfl | rfl := told
  · cases out with
    | none => exact State.announceRole_link_self _ u
    | some o =>
      exact (State.announceRole_link_of_ne _ o (apart fun same => other (congrArg _ same.symm))).trans
        (State.announceRole_link_self _ u)
  · refine (State.announceRole_link_self _ u).trans ?_
    rw [State.announceRole_link_of_ne _ w (apart fun same => other (congrArg _ same))]
    rfl

/-- What a handover does to the lane before the roles are exchanged, and the overlap it found (R41 to R46). -/
def State.relayed (s : State) (l : LaneId) (w : WriterId) : State × Nat :=
  if s.running l then s.relayLane l w (s.holder (.onAir l)).isSome else (s, 0)

/-- The handover: the lane, the roles, the ROLE frames, and the report (R40 to R48). -/
theorem State.relay_eq (w : WriterId) : s.relay l w = ((s.relayed l w).1.exchanged l w (s.holder (.onAir l))).report
    .handover (some l) (some w) (some (s.relayed l w).2) := by
  unfold State.relay State.relayed State.exchanged
  cases s.holder (.onAir l) <;> rfl

@[simp] theorem State.relayed_writers (w : WriterId) : (s.relayed l w).1.writers = s.writers := by
  unfold State.relayed
  split
  · exact s.relayLane_writers l w _
  · rfl

@[simp] theorem State.relayed_link (w : WriterId) (k : Link) : (s.relayed l w).1.link k = s.link k := by
  unfold State.relayed State.relayLane
  split
  · simp only [State.onLane_link]
  · rfl

theorem State.report_writers (k : ReportKind) (l : Option LaneId) (w : Option WriterId) (v : Option Nat) :
    (s.report k l w v).writers = s.writers := s.queueReport_writers _

theorem State.report_link (k : ReportKind) (l : Option LaneId) (w : Option WriterId) (v : Option Nat) (x : Link) :
    (s.report k l w v).link x = s.link x := congrArg (Links.get · x) (s.queueReport_links _)

/-- A report joins the queue alike whatever the writers and the links are. -/
theorem State.report_with (ws : PerWriter Writer) (ks : Links) (k : ReportKind) (l : Option LaneId)
    (w : Option WriterId) (v : Option Nat) : ({ s with writers := ws, links := ks } : State).report k l w v
      = { s.report k l w v with writers := ws, links := ks } := by
  unfold State.report State.queueReport
  dsimp only
  split <;> rfl

/-- The exchange reads the writers alone. -/
theorem State.exchangeRoles_congr {s t : State} (same : t.writers = s.writers) (w : WriterId) (out : Option WriterId) :
    (t.exchangeRoles l w out).writers = (s.exchangeRoles l w out).writers := by
  cases out <;> simp [State.exchangeRoles, State.writer, State.setWriter, same]

/-- A handover does what it does to the lane and queues its report; the rest is writers and links. -/
theorem State.relay_rest (w : WriterId) : s.relay l w =
    { (s.relayed l w).1.report .handover (some l) (some w) (some (s.relayed l w).2) with
      writers := (s.relay l w).writers, links := (s.relay l w).links } := by
  have same := (s.relayed l w).1.exchanged_eq l w (s.holder (.onAir l))
  rw [State.relay_eq, same, State.report_with]

/-- The writers after a handover (R47). -/
theorem State.relay_writers (w : WriterId) :
    (s.relay l w).writers = (s.exchangeRoles l w (s.holder (.onAir l))).writers := by
  rw [State.relay_eq, State.report_writers, State.exchanged_writers]
  exact State.exchangeRoles_congr l (s.relayed_writers l w) w _

theorem State.relay_writer (w u : WriterId) :
    (s.relay l w).writer u = (s.exchangeRoles l w (s.holder (.onAir l))).writer u :=
  congrArg (PerWriter.get · u) (s.relay_writers l w)

/-- The links after a handover (R48). -/
theorem State.relay_link_of_ne {k : Link} (hw : k ≠ .writer w)
    (ho : ∀ o, s.holder (.onAir l) = some o → k ≠ .writer o) : (s.relay l w).link k = s.link k := by
  rw [State.relay_eq, State.report_link, State.exchanged_link_of_ne _ l hw ho, State.relayed_link]

theorem State.relay_link (other : s.holder (.onAir l) ≠ some w) (u : WriterId)
    (told : u = w ∨ s.holder (.onAir l) = some u) :
    (s.relay l w).link (.writer u) = (s.link (.writer u)).sendRole (roleFrame u ((s.relay l w).writer u)) := by
  have same : (s.relay l w).writer u = ((s.relayed l w).1.exchanged l w (s.holder (.onAir l))).writer u := by
    rw [State.relay_eq, State.writer, State.report_writers, State.writer]
  rw [same, State.relay_eq, State.report_link, State.exchanged_link _ l other u told, State.relayed_link]

theorem State.takeTake_of_standby (role : (s.writer w).role = .standby l) : s.takeTake w [] = s.relay l w := by
  unfold State.takeTake
  rw [if_neg fun h => h rfl, role]

/-- The writer that alone holds a role, or none. -/
theorem State.holder_of_only {r : Role} (only : ∀ u, (s.writer u).role = r ↔ out = some u) : s.holder r = out := by
  cases holds : s.holder r with
  | some v => exact ((only v).mp (State.holder_role holds)).symm
  | none =>
    cases out with
    | none => rfl
    | some v => exact absurd ((only v).mpr rfl) (State.holder_none holds v)

end Exchanged

/-- Settles O30: the lane is STOPPED, so that only the roles are exchanged. -/
theorem takeExchangesRoles : Obligations.TakeExchangesRoles := by
  unfold Obligations.TakeExchangesRoles
  intro s w v l role stopped only room
  have holder : (s.messaged w).holder (.onAir l) = some v :=
    State.holder_of_only _ fun u => (only u).trans (by rw [Option.some.injEq, eq_comm])
  have other : some v ≠ some w := holder ▸ State.holder_ne_standby (s := s.messaged w) role
  have apart : w ≠ v := fun same => other (congrArg _ same.symm)
  have relayed : (s.messaged w).relayed l w = (s.messaged w, 0) := by
    rw [State.relayed, State.running_of_stopped (s := s.messaged w) stopped]
    rfl
  have taken : exec (.writerTake w []) s = .next ((s.messaged w).relay l w) := by
    rw [exec_writerTake, State.takeTake_of_standby (s.messaged w) l role]
  refine ⟨_, taken, ?_, ?_, ?_, fun u hw hv => ?_, fun k hw hv => ?_, ?_, ?_⟩
  · refine ((s.messaged w).relay_rest l w).trans ?_
    rw [relayed, State.report_of_room (s.messaged w) _ _ _ _ room]
    rfl
  · rw [State.relay_writer, holder, State.exchangeRoles_incoming _ l other]; rfl
  · rw [State.relay_writer, holder, State.exchangeRoles_outgoing _ l apart.symm]; rfl
  · rw [State.relay_writer, holder, State.exchangeRoles_others _ l hw fun same => hv (Option.some.inj same).symm]; rfl
  · rw [State.relay_link_of_ne _ l hw fun o ho => Option.some.inj (holder.symm.trans ho) ▸ hv,
      State.messaged_link_of_ne s w hw]
  · rw [State.relay_link _ l (holder ▸ other) w (.inl rfl), State.messaged_link_self]; rfl
  · rw [State.relay_link _ l (holder ▸ other) v (.inr holder),
      State.messaged_link_of_ne s w fun same => apart (Link.writer.inj same).symm]
    rfl

end Sys2Proof.Machine
end

section
/-! PROOF. The relay handover on a RUNNING lane (R40 to R48): the replay in the words of Sys2Proof/Safety.lean, and from it
O31. -/

namespace Sys2Proof.Machine

/-! ## The replay (R42 to R46), where nothing is timed -/

section Replay

variable (s : State) (l : LaneId) (w : WriterId) {b : Builder} {n : Nat}

/-- A builder that holds at most so many units, none of them due. -/
def State.holdsQuietly (s : State) (n : Nat) (b : Builder) : Prop := b.held ≤ n ∧ s.notDue b

theorem State.holdsQuietly_mono {m : Nat} (h : s.holdsQuietly n b) (le : n ≤ m) : s.holdsQuietly m b :=
  ⟨h.1.trans le, h.2⟩

theorem State.limitReports_append (ms ns : List Marks) :
    s.limitReports l w (ms ++ ns) = s.limitReports l w ms ++ s.limitReports l w ns := List.flatMap_append

section Ahead

variable (ahead : 0 < (s.lane l).params.correction)
include ahead

/-- A close keeps the number of units. -/
theorem State.closedQuietly_holdsQuietly (cause : CloseCause) (h : s.holdsQuietly n b) :
    s.holdsQuietly n (s.closedQuietly l cause b) :=
  ⟨(s.closedQuietly_held l b cause).trans_le h.1, s.closedQuietly_notDue l ahead cause h.2⟩

/-- Marks only close. -/
theorem State.marked_holdsQuietly (m : Marks) (h : s.holdsQuietly n b) : s.holdsQuietly n (s.marked l m b) := by
  have broken : s.holdsQuietly n (if m.brk = true then s.closedQuietly l .brk b else b) := by
    split
    · exact s.closedQuietly_holdsQuietly l ahead .brk h
    · exact h
  unfold State.marked
  cases m.speaker with
  | none => exact broken
  | some i => exact s.closedQuietly_holdsQuietly l ahead .speaker broken

/-- A word begins at most one unit. -/
theorem State.laid_holdsQuietly (word : CapWord) (arrival : Nat) (h : s.holdsQuietly n b) :
    s.holdsQuietly (n + 1) (s.laid l w word arrival b) := by
  have begun (c : Builder) (hc : s.holdsQuietly n c) : c.provisional.length + 1 ≤ n + 1 ∧ s.notDue c :=
    ⟨Nat.succ_le_succ ((Nat.le_add_right _ _).trans hc.1), hc.2⟩
  unfold State.laid
  cases opened : b.openUnit with
  | none => exact begun b h
  | some u =>
    dsimp only
    cases (s.lane l).params.placed u.lines word with
    | some lines => exact begun b h
    | none => exact begun (s.closedQuietly l .full b) (s.closedQuietly_holdsQuietly l ahead .full h)

/-- A staged entry that is replayed, where nothing is timed (R45). -/
theorem replayEntry_eq (r : LaneRun) (params : r.lane.params = (s.lane l).params) (h : s.holdsQuietly 4 r.lane.builder)
    (e : Staged) : replayEntry (s.env l) w (s.writer w).lag r e
      = r.building (s.replayed l w r.lane.builder e) (s.limitReports l w [e.marks]) := by
  have marked := s.marked_holdsQuietly l ahead e.marks h
  unfold replayEntry
  rw [applyMarks_eq s l r w params ahead h, 
    layWord_eq s l (r.building (s.marked l e.marks r.lane.builder) (s.limitReports l w [e.marks])) params w _ _
      fun _ _ _ => ⟨marked, ahead⟩, LaneRun.building_building, List.append_nil]
  rfl

/-- The staged entries that are replayed, where each finds a place (R45). -/
theorem replayEntries_eq (es : List Staged) (r : LaneRun) (params : r.lane.params = (s.lane l).params)
    (h : s.holdsQuietly n r.lane.builder) (room : n + es.length ≤ 4) :
    es.foldl (replayEntry (s.env l) w (s.writer w).lag) r
        = r.building (es.foldl (s.replayed l w) r.lane.builder) (s.limitReports l w (es.map Staged.marks))
      ∧ s.holdsQuietly 4 (es.foldl (s.replayed l w) r.lane.builder) := by
  induction es generalizing r n with
  | nil => exact ⟨r.building_self.symm, s.holdsQuietly_mono h room⟩
  | cons e es ih =>
    rw [List.length_cons] at room
    have held := s.holdsQuietly_mono h (Nat.le_of_add_right_le room)
    have replayed : s.holdsQuietly (n + 1) (s.replayed l w r.lane.builder e) :=
      s.laid_holdsQuietly l w ahead { text := e.text, attach := e.attach } e.arrival (s.marked_holdsQuietly l ahead e.marks h)
    obtain ⟨run, left⟩ := ih (r.building (s.replayed l w r.lane.builder e) (s.limitReports l w [e.marks])) params replayed
      (by omega)
    refine ⟨?_, left⟩
    rw [List.foldl_cons, replayEntry_eq s l w ahead r params held, run, LaneRun.building_building,
      ← State.limitReports_append]
    rfl

/-- The replay (R45). -/
theorem replay_eq (es : List Staged) (m : Marks) (r : LaneRun) (params : r.lane.params = (s.lane l).params)
    (h : s.holdsQuietly n r.lane.builder) (room : n + es.length ≤ 4) :
    replay w (s.writer w).lag es m (s.env l) r = r.building (s.marked l m (es.foldl (s.replayed l w) r.lane.builder))
      (s.limitReports l w (es.map Staged.marks ++ [m])) := by
  obtain ⟨run, left⟩ := replayEntries_eq s l w ahead es r params h room
  rw [replay, run, 
    applyMarks_eq s l (r.building (es.foldl (s.replayed l w) r.lane.builder) (s.limitReports l w (es.map Staged.marks))) w
      params ahead left, LaneRun.building_building,
    State.limitReports_append]
  rfl

end Ahead

end Replay

/-- What is left to replay, as Safety states it (R44, R45). -/
theorem Writer.toReplay_eq (x : Writer) (k : Nat) : x.toReplay k =
    (foldOntoOldest (foldMarks (x.staging.take k)) (x.staging.drop k),
      if foldOntoOldest (foldMarks (x.staging.take k)) (x.staging.drop k) = [] then
        (foldMarks (x.staging.take k)).fold x.marks
      else x.marks) := by
  unfold Writer.toReplay
  cases x.staging.drop k with
  | nil => simp [foldOntoOldest, foldedMarks_append, foldMarks_eq]
  | cons e es => simp [foldOntoOldest, foldedMarks_append, foldMarks_eq]

theorem Writer.toReplay_length (x : Writer) (k : Nat) : (x.toReplay k).1.length = x.staging.length - k := by
  rw [← List.length_drop]
  unfold Writer.toReplay
  cases x.staging.drop k <;> rfl

/-! ## The lane after a handover (R41 to R46) -/

section Relay

variable (s : State) (l : LaneId) (w : WriterId) (k : Nat) (suppressed : Bool)

/-- The builder once the staged words that are left are replayed onto it, or, where the lane suppresses its messages, as it
stood (R45, R46). -/
def State.handedBuilder (b : Builder) : Builder :=
  if suppressed = true then b
  else s.marked l ((s.writer w).toReplay k).2 (((s.writer w).toReplay k).1.foldl (s.replayed l w) b)

/-- The lane's counters then (R44, R46). -/
def State.handedCounters (c : Counters) : Counters :=
  let counted := { c with overlap := min (c.overlap + k) 65535 }
  if suppressed = true then
    { counted with suppressed := min (counted.suppressed + ((s.writer w).toReplay k).1.length) 65535 }
  else counted

/-- The STYLE_LIMIT reports of the replay. -/
def State.handedLimits : List Report :=
  if suppressed = true then []
  else s.limitReports l w (((s.writer w).toReplay k).1.map Staged.marks ++ [((s.writer w).toReplay k).2])

theorem State.handedLimits_length : (s.handedLimits l w k suppressed).length ≤ (s.writer w).staging.length - k + 1 := by
  unfold State.handedLimits
  split
  · exact Nat.zero_le _
  · refine (s.limitReports_length l w _).trans ?_
    rw [List.length_append, List.length_map, Writer.toReplay_length]
    exact Nat.le_refl _

variable (ahead : 0 < (s.lane l).params.correction)
include ahead

/-- The words that repeat the end of the lane are dropped and counted, and the others replayed or counted as suppressed. -/
theorem discardAndReplay_eq (r : LaneRun) {n : Nat} (params : r.lane.params = (s.lane l).params)
    (h : s.holdsQuietly n r.lane.builder) (room : n + ((s.writer w).staging.length - k) ≤ 4) :
    discardAndReplay suppressed w (s.writer w) k (s.env l) r =
      { lane := { r.lane with
          builder := s.handedBuilder l w k suppressed r.lane.builder
          counters := s.handedCounters w k suppressed r.lane.counters }
        out := r.out ++ s.handedLimits l w k suppressed } := by
  have replay := s.writer w |>.toReplay_eq k
  have length := s.writer w |>.toReplay_length k
  unfold discardAndReplay State.handedBuilder State.handedCounters State.handedLimits
  rw [← length] at room
  rw [replay] at room ⊢
  cases suppressed with
  | true =>
    simp only [if_true, List.append_nil]
    rfl
  | false =>
    simp only [Bool.false_eq_true, if_false]
    exact replay_eq s l w ahead _ _ (r.edit fun ln => { ln with counters :=
      { ln.counters with overlap := min (ln.counters.overlap + k) 65535 } }) params h room

omit ahead in
/-- A lane that becomes another, with reports that find room. -/
theorem State.onLane_of_run {act : LaneEnv → LaneRun → LaneRun} {ln : Lane} {rs : List Report}
    (run : act (s.env l) { lane := s.lane l, out := [] } = { lane := ln, out := rs })
    (room : s.reports.length + rs.length ≤ 32) :
    s.onLane l act = { s.setLane l ln with reports := s.reports ++ rs } := by
  unfold State.onLane
  rw [run]
  exact State.queueReports_of_room (s.setLane l ln) rs room

omit ahead in
/-- A handover, where the close of the open unit only changes the builder and leaves the window (R42, R43). -/
theorem State.relayLane_of_closed {b : Builder} (out : Bool)
    (closes : s.onLane l (fun env => closeOpen env .handover) = s.setLane l { s.lane l with builder := b })
    (recent : b.recent = (s.lane l).builder.recent) (suppresses : s.suppresses l = suppressed)
    (found : k = if out = true then overlap (s.lane l).builder.recent ((s.writer w).staging.map Staged.text) else 0) :
    s.relayLane l w out = ((s.setLane l { s.lane l with builder := b }).onLane l
      (discardAndReplay suppressed w (s.writer w) k), k) := by
  have overlaps : (s.setLane l { s.lane l with builder := b }).overlapNow l w out = k := by
    rw [State.overlapNow, State.lane_setLane_self, recent, found]
    rfl
  have still : (s.setLane l { s.lane l with builder := b }).suppresses l = suppressed := by
    rw [← suppresses]
    cases l <;> rfl
  unfold State.relayLane
  simp only [closes, overlaps, still]
  rfl

/-- What a handover does to a RUNNING lane, and the overlap it finds (R41 to R46). -/
theorem State.relayed_eq (running : (s.lane l).state = .running) (suppresses : s.suppresses l = suppressed)
    (found : k = if (s.holder (.onAir l)).isSome = true then
      overlap (s.lane l).builder.recent ((s.writer w).staging.map Staged.text) else 0)
    (few : (s.lane l).builder.provisional.length + ((s.writer w).staging.length - k) ≤ 3)
    (quiet : s.notDue (s.lane l).builder)
    (room : s.reports.length + ((s.writer w).staging.length - k) ≤ 30) :
    s.relayed l w = ({ s.setLane l { s.lane l with
        builder := s.handedBuilder l w k suppressed (s.closedQuietly l .handover (s.lane l).builder)
        counters := s.handedCounters w k suppressed (s.lane l).counters } with
      reports := s.reports ++ s.handedLimits l w k suppressed }, k) := by
  have opened : (s.lane l).builder.openUnit.toList.length ≤ 1 := by cases (s.lane l).builder.openUnit <;> simp
  have held : (s.lane l).builder.held ≤ (s.lane l).builder.provisional.length + 1 := Nat.add_le_add_left opened _
  have closes : s.onLane l (fun env => closeOpen env .handover)
      = s.setLane l { s.lane l with builder := s.closedQuietly l .handover (s.lane l).builder } :=
    State.onLane_of_building_quiet s l (closeOpen_eq s l { lane := s.lane l, out := [] } rfl ahead
      ⟨held.trans (by omega), quiet⟩ .handover)
  have closed : s.holdsQuietly ((s.lane l).builder.provisional.length + 1)
      (s.closedQuietly l .handover (s.lane l).builder) := s.closedQuietly_holdsQuietly l ahead .handover ⟨held, quiet⟩
  have limits := s.handedLimits_length l w k suppressed
  have run := discardAndReplay_eq s l w k suppressed ahead
    { lane := { s.lane l with builder := s.closedQuietly l .handover (s.lane l).builder }, out := [] } rfl closed (by omega)
  unfold State.relayed
  rw [if_pos (State.running_iff.mpr running), State.relayLane_of_closed s l w k suppressed _ closes
    (State.closedQuietly_recent ..) suppresses found,
    State.onLane_of_run (s.setLane l _) l ((congrArg _ (by rw [State.lane_setLane_self])).trans run)
      (show s.reports.length + _ ≤ 32 by simp only [List.nil_append]; omega), State.setLane_setLane]
  rfl

end Relay

/-! ## What a handover does not look at -/

section Around

variable (s : State) (es : List ScheduledCue) (k : Links) (x : Option Nat) (l : LaneId) (w : WriterId)

theorem State.suppresses_around : (s.around es k x).suppresses l = s.suppresses l := by cases l <;> rfl

theorem State.relayed_around : (s.around es k x).relayed l w = ((s.relayed l w).1.around es k x, (s.relayed l w).2) := by
  have running : (s.around es k x).running l = s.running l := rfl
  have overlapNow (t : State) (out : Bool) : (t.around es k x).overlapNow l w out = t.overlapNow l w out := rfl
  have writer (t : State) : (t.around es k x).writer w = t.writer w := rfl
  have holder : (s.around es k x).holder (.onAir l) = s.holder (.onAir l) := rfl
  unfold State.relayed State.relayLane
  rw [running, holder]
  split
  · simp only [State.onLane_around, overlapNow, State.suppresses_around, writer]
  · rfl

/-- A handover acts alike whatever stands on the links, the schedule and the supervision timer; it writes the links, and
leaves the others alone. -/
theorem State.relay_around : (s.around es k x).relay l w =
    (s.relay l w).around es ((s.around es k x).relay l w).links x := by
  have writers : ((s.around es k x).relay l w).writers = (s.relay l w).writers := by
    rw [State.relay_writers, State.relay_writers]
    exact State.exchangeRoles_congr l (s := s) (t := s.around es k x) rfl w (s.holder (.onAir l))
  refine ((s.around es k x).relay_rest l w).trans ?_
  rw [writers, State.relayed_around, State.report, State.queueReport_around]
  exact congrArg (fun t : State => t.around es ((s.around es k x).relay l w).links x) (s.relay_rest l w).symm

end Around

/-! ## HANDOVER and WRITER_TAKE (R40) -/

section Handover

variable (s : State) (l : LaneId) {w : WriterId}

/-- Link A takes its request and its answer; no other link does. -/
theorem State.heard_link_of_ne {k : Link} (h : k ≠ .automation) : s.heard.link k = s.link k := Links.get_set_of_ne _ _ h

/-- HANDOVER of a lane with a standby writer. -/
theorem exec_handover (only : ∀ u, (s.writer u).role = .standby l ↔ u = w) (room : s.canAnswer) :
    exec (.handover [BitVec.ofNat 8 (laneNumber l)]) s
      = .next ((s.heard.relay l w).send .automation (ackOf 0x27 none)) := by
  have holder : s.heard.holder (.standby l) = some w :=
    State.holder_of_only s.heard fun u => (only u).trans (by rw [Option.some.injEq, eq_comm])
  have acked : handoverRequest [BitVec.ofNat 8 (laneNumber l)] s.heard = (s.heard.relay l w, .ack none) := by
    simp [handoverRequest, byteAt, holder]
  exact congrArg _ (requestRow_of_ack 0x27 _ _ s _ none room rfl acked)

/-- A frame sent on link A stands there alone. -/
theorem State.send_link_of_ne (f : TxFrame) {k : Link} (h : k ≠ .automation) :
    (s.send .automation f).link k = s.link k := State.link_setLink_of_ne _ _ h

end Handover

theorem PerLane.eq_of_get {α : Type} {p q : PerLane α} (same : ∀ l, p.get l = q.get l) : p = q := by
  obtain ⟨p0, p1⟩ := p
  obtain ⟨q0, q1⟩ := q
  exact congrArg₂ PerLane.mk (same .lane0) (same .lane1)

/-! ### HANDOVER and WRITER_TAKE of the standby writer do the same -/

section Agree

variable (s : State) (l : LaneId) {w : WriterId}

theorem State.heard_relay : s.heard.relay l w
    = (s.relay l w).around s.schedule (s.heard.relay l w).links (supervisionRestarted s) :=
  s.relay_around s.schedule (linksCounted s.links .automation) (supervisionRestarted s) l w

theorem State.messaged_relay : (s.messaged w).relay l w
    = (s.relay l w).around s.schedule ((s.messaged w).relay l w).links s.supervisionExpiry :=
  s.relay_around s.schedule (linksCounted s.links (.writer w)) s.supervisionExpiry l w

theorem State.messaged_relay_writer (u : WriterId) :
    ((s.messaged w).relay l w).writer u = (s.heard.relay l w).writer u :=
  (congrArg (State.writer · u) (s.messaged_relay l)).trans (congrArg (State.writer · u) (s.heard_relay l)).symm

/-- A link of neither writer of the handover. -/
theorem State.messaged_relay_link_untold {k : Link} (hw : k ≠ .writer w)
    (ho : ∀ o, s.holder (.onAir l) = some o → k ≠ .writer o) : ((s.messaged w).relay l w).link k = s.link k :=
  ((s.messaged w).relay_link_of_ne l hw ho).trans (s.messaged_link_of_ne w hw)

variable (other : s.holder (.onAir l) ≠ some w)
include other

theorem State.messaged_relay_link_of_ne {v : WriterId} (hv : v ≠ w) :
    ((s.messaged w).relay l w).link (.writer v) = (s.heard.relay l w).link (.writer v) := by
  have apart : Link.writer v ≠ .writer w := fun same => hv (Link.writer.inj same)
  by_cases told : s.holder (.onAir l) = some v
  · rw [(s.messaged w).relay_link l other v (.inr told), s.heard.relay_link l other v (.inr told),
      State.messaged_relay_writer, State.messaged_link_of_ne s w apart, State.heard_link_of_ne s (by simp)]
  · have not_out (o : WriterId) (ho : s.holder (.onAir l) = some o) : Link.writer v ≠ .writer o :=
      fun same => told (Link.writer.inj same ▸ ho)
    rw [s.messaged_relay_link_untold l apart not_out, s.heard.relay_link_of_ne l apart not_out,
      State.heard_link_of_ne s (by simp)]

/-- The frame of the WRITER_TAKE is counted on its own link. -/
theorem State.messaged_relay_link_self : ((s.messaged w).relay l w).link (.writer w) =
    { (s.heard.relay l w).link (.writer w) with
      rx := Receiver.inFrame, good := min ((s.link (.writer w)).good + 1) 65535 } := by
  rw [(s.messaged w).relay_link l other w (.inl rfl), s.heard.relay_link l other w (.inl rfl),
    State.messaged_relay_writer, State.messaged_link_self, State.heard_link_of_ne s (by simp)]
  rfl

end Agree

/-- Settles O31: the first part is what `State.relayed_eq` says of the lane, with the exchange of roles; the second rests on
what a handover does not look at. -/
theorem handoverDropsTheOverlap : Obligations.HandoverDropsTheOverlap := by
  unfold Obligations.HandoverDropsTheOverlap
  refine ⟨fun s w l outgoing k suppressed running only onAir out found few quiet ahead _ _ answer room => ?_,
    fun s w l only answer => ?_⟩
  · have role : (s.writer w).role = .standby l := (only w).mpr rfl
    have holder : s.heard.holder (.onAir l) = outgoing := State.holder_of_only s.heard onAir
    have other : outgoing ≠ some w := holder ▸ State.holder_ne_standby (s := s.heard) role
    have suppresses : s.heard.suppresses l = suppressed :=
      Bool.eq_iff_iff.mpr ((s.heard.suppresses_iff l).trans out.symm)
    have overlaps : k = if (s.heard.holder (.onAir l)).isSome = true then
        overlap (s.lane l).builder.recent ((s.writer w).staging.map Staged.text) else 0 := by
      rw [found, holder]
      cases outgoing <;> rfl
    have relayed := s.heard.relayed_eq l w k suppressed ahead running suppresses overlaps few quiet room
    have limits : (s.heard.handedLimits l w k suppressed).length ≤ (s.writer w).staging.length - k + 1 :=
      s.heard.handedLimits_length l w k suppressed
    have reports : (s.reports ++ s.heard.handedLimits l w k suppressed).length < 32 := by
      rw [List.length_append]; omega
    have rest := s.heard.relay_rest l w
    rw [relayed, State.report_of_room _ _ _ _ _ (by exact reports)] at rest
    refine ⟨_, exec_handover s l only answer, ?_, ?_, fun v hv => ?_, fun u hw ho => ?_, ?_, fun j auto hw ho => ?_,
      fun u told => ?_⟩
    · refine (congrArg (fun t : State => { t with
        links := ((s.heard.relay l w).send .automation (ackOf 0x27 none)).links }) rest).trans ?_
      cases suppressed <;> rfl
    · refine (s.heard.relay_writer l w w).trans ?_
      rw [holder, State.exchangeRoles_incoming _ l other]; rfl
    · refine (s.heard.relay_writer l w v).trans ?_
      rw [holder, hv, State.exchangeRoles_outgoing _ l fun same => other (hv.trans (congrArg _ same))]; rfl
    · refine (s.heard.relay_writer l w u).trans ?_
      rw [holder, State.exchangeRoles_others _ l hw ho]; rfl
    · refine (State.link_setLink_self (s.heard.relay l w) .automation _).trans ?_
      rw [State.relay_link_of_ne _ l (by simp) (by simp)]
      rfl
    · rw [State.send_link_of_ne _ _ auto, State.relay_link_of_ne _ l hw (holder ▸ ho), State.heard_link_of_ne s auto]
    · rw [State.send_link_of_ne _ _ (by simp), State.relay_link _ l (holder ▸ other) u (holder ▸ told),
        State.heard_link_of_ne s (by simp)]
      rfl
  · have role : (s.writer w).role = .standby l := (only w).mpr rfl
    have taken : exec (.writerTake w []) s = .next ((s.messaged w).relay l w) := by
      rw [exec_writerTake, State.takeTake_of_standby (s.messaged w) l role]
    have other : s.holder (.onAir l) ≠ some w := State.holder_ne_standby role
    refine ⟨_, _, exec_handover s l only answer, taken, ?_, ?_, ?_, fun v hv => ?_, ?_⟩
    · exact (s.messaged_relay l).trans (congrArg (fun t : State => { t with
        links := ((s.messaged w).relay l w).links, supervisionExpiry := s.supervisionExpiry }) (s.heard_relay l)).symm
    · exact s.messaged_relay_link_untold l (k := .automation) (by simp) (by simp)
    · exact PerLane.eq_of_get fun m => s.messaged_relay_link_untold l (k := .inserter m) (by simp) (by simp)
    · rw [State.send_link_of_ne _ _ (by simp), s.messaged_relay_link_of_ne l other hv]
    · rw [State.send_link_of_ne _ _ (by simp), s.messaged_relay_link_self l other]

end Sys2Proof.Machine
end

section
/-! PROOF. ASSIGN and ENGINE-RESET (R17 to R19, R191): how the roles are given away and told to the writers; O38 and
O58. -/

namespace Sys2Proof.Machine

/-! ## ASSIGN (R18) -/

section Assign

variable (s : State) {w v : WriterId} {l : LaneId}

/-- A writer without a role has none to leave. -/
theorem State.leaveRole_of_idle (idle : (s.writer w).role = .idle) : s.leaveRole w = s := by
  have leaving : (s.writer w).leaving = s.writer w := by
    have same : { s.writer w with role := .idle } = s.writer w := by rw [← idle]
    rw [Writer.leaving, idle]
    exact same
  rw [State.leaveRole_eq, leaving, State.relieved, idle, State.setWriter_writer]

/-- An on-air writer leaves its role, and its lane has no unit to close. -/
theorem State.leaveRole_of_onAir (onAir : (s.writer v).role = .onAir l)
    (empty : (s.lane l).builder.openUnit = none) : s.leaveRole v = s.setWriter v { s.writer v with role := .idle } := by
  have still : s.onLane l (fun env => closeOpen env .handover) = s := by
    rw [State.onLane_of_building_quiet (b := (s.lane l).builder) s l (by simp only [closeOpen, empty]; rfl)]
    exact s.setLane_lane l
  have leaving : (s.writer v).leaving = { s.writer v with role := .idle } := by rw [Writer.leaving, onAir]
  rw [State.leaveRole_eq, leaving, State.relieved, onAir]
  dsimp only
  rw [still]

/-- The part after a writer takes the place of another on the air of a lane. -/
def State.displacing (s : State) (w v : WriterId) (l : LaneId) : State :=
  (s.setWriter v { s.writer v with role := .idle }).setWriter w { s.writer w with role := .onAir l }

theorem State.displacing_taker : (s.displacing w v l).writer w = { s.writer w with role := .onAir l } :=
  State.writer_setWriter_self ..

theorem State.displacing_displaced (apart : v ≠ w) :
    (s.displacing w v l).writer v = { s.writer v with role := .idle } :=
  (State.writer_setWriter_of_ne _ _ apart).trans (State.writer_setWriter_self ..)

theorem State.displacing_other {u : WriterId} (hw : u ≠ w) (hv : u ≠ v) :
    (s.displacing w v l).writer u = s.writer u :=
  (State.writer_setWriter_of_ne _ _ hw).trans (State.writer_setWriter_of_ne _ _ hv)

/-- A writer without a role takes that of a lane's holder (R18). -/
theorem State.assignRole_of_idle (idle : (s.writer w).role = .idle) (holder : s.holder (.onAir l) = some v)
    (empty : (s.lane l).builder.openUnit = none) : s.assignRole w (.onAir l) = s.displacing w v l := by
  have onAir := State.holder_role holder
  have apart : w ≠ v := fun same => by rw [same, onAir] at idle; exact absurd idle (by simp)
  rw [State.assignRole_eq _ _ _ (by simp), s.leaveRole_of_idle idle, State.vacated, holder]
  dsimp only
  rw [s.leaveRole_of_onAir onAir empty, State.writer_setWriter_of_ne _ _ apart]
  rfl

/-- The request of an ASSIGN to ON_AIR (R17 to R19). -/
theorem exec_assign_onAir (answer : s.canAnswer) {t : State} (assigned : s.heard.assignRole w (.onAir l) = t) :
    exec (.assign [BitVec.ofNat 8 (writerNumber w), 1, BitVec.ofNat 8 (laneNumber l)]) s
      = .next ((announceChanges s.writers t).send .automation (ackOf 0x26 none)) := by
  have acked : assignRequest [BitVec.ofNat 8 (writerNumber w), 1, BitVec.ofNat 8 (laneNumber l)] s.heard
      = (announceChanges s.heard.writers t, .ack none) := by
    have asks : roleOf 1 (laneNumber l) = some (.onAir l) := by simp [roleOf]
    simp [assignRequest, byteAt, asks, assigned]
  exact congrArg _ (requestRow_of_ack 0x26 _ _ s _ none answer rfl acked)

end Assign

/-! ## What a request that gives roles away leaves -/

section Told

variable (s : State) (before : PerWriter Writer) (f : TxFrame)

/-- The writers' links, once those whose role has changed are told. -/
theorem State.told_link (w : WriterId) : ((announceChanges before s).send .automation f).link (.writer w) =
    if (before.get w).role = (s.writer w).role then s.link (.writer w)
    else (s.link (.writer w)).sendRole (roleFrame w (s.writer w)) := by
  rw [State.send_link_of_ne _ _ (by simp), announceChanges_link]

/-- The other links but A. -/
theorem State.told_link_of_ne {k : Link} (auto : k ≠ .automation) (other : ∀ w, k ≠ .writer w) :
    ((announceChanges before s).send .automation f).link k = s.link k := by
  rw [State.send_link_of_ne _ _ auto, announceChanges_link_of_ne _ _ other]

theorem State.told_automation : ((announceChanges before s).send .automation f).links.automation
    = (s.link .automation).send f := by
  refine (State.link_setLink_self (announceChanges before s) .automation _).trans ?_
  rw [announceChanges_link_of_ne _ _ (by simp)]

theorem State.told_writer (w : WriterId) : ((announceChanges before s).send .automation f).writer w = s.writer w :=
  show (announceChanges before s).writer w = s.writer w from by rw [announceChanges_eq]; rfl

end Told

/-- Settles O38. -/
theorem assignDisplacesTheHolder : Obligations.AssignDisplacesTheHolder := by
  unfold Obligations.AssignDisplacesTheHolder
  intro s w v l idle only empty answer
  have holder : s.heard.holder (.onAir l) = some v :=
    State.holder_of_only s.heard fun u => (only u).trans (by rw [Option.some.injEq, eq_comm])
  have onAir : (s.writer v).role = .onAir l := (only v).mpr rfl
  have apart : v ≠ w := fun same => by rw [← same, onAir] at idle; exact absurd idle (by simp)
  have displaced := s.heard.displacing_displaced (l := l) apart
  have taker := s.heard.displacing_taker (w := w) (v := v) (l := l)
  refine ⟨_, exec_assign_onAir s answer (s.heard.assignRole_of_idle idle holder empty), ?_, ?_, ?_, fun u hw hv => ?_, ?_,
    fun k auto hw hv => ?_, ?_, ?_⟩
  · exact congrArg (fun t : State => { t with
      writers := ((announceChanges s.writers (s.heard.displacing w v l)).send .automation (ackOf 0x26 none)).writers
      links := ((announceChanges s.writers (s.heard.displacing w v l)).send .automation (ackOf 0x26 none)).links })
      (announceChanges_eq (s.heard.displacing w v l) s.writers)
  · rw [State.told_writer, taker]; rfl
  · rw [State.told_writer, displaced]; rfl
  · rw [State.told_writer, s.heard.displacing_other hw hv]; rfl
  · rw [State.told_automation]; rfl
  · rw [← s.heard_link_of_ne auto]
    cases k with
    | automation => exact absurd rfl auto
    | inserter m => exact State.told_link_of_ne _ _ _ auto (by simp)
    | writer u =>
      have uw : u ≠ w := fun same => hw (congrArg _ same)
      have uv : u ≠ v := fun same => hv (congrArg _ same)
      rw [State.told_link, s.heard.displacing_other uw uv]
      exact if_pos rfl
  · rw [State.told_link, State.told_writer, taker, if_neg (by rw [← State.writer_eq, idle]; simp)]
    rfl
  · rw [State.told_link, State.told_writer, displaced, if_neg (by rw [← State.writer_eq, onAir]; simp)]
    rfl

/-! ## STORE-RESET (R153) -/

section Store

variable (x : Store)

theorem Store.buffer_setBuffer_self (b : BufferId) (y : LoadBuffer) : (x.setBuffer b y).buffer b = y := by cases b <;> rfl

theorem Store.buffer_setBuffer_of_ne {b c : BufferId} (y : LoadBuffer) (h : c ≠ b) :
    (x.setBuffer b y).buffer c = x.buffer c := by
  cases b with
  | bufA => cases c with
    | bufA => exact absurd rfl h
    | bufB => rfl
  | bufB => cases c with
    | bufA => rfl
    | bufB => exact absurd rfl h

@[simp] theorem Store.buffer_withEngine (e : StoreEngine) (c : BufferId) :
    ({ x with engine := e } : Store).buffer c = x.buffer c := by cases c <;> rfl

@[simp] theorem Store.buffer_setPage (q : Nat) (v : PageState) (c : BufferId) : (x.setPage q v).buffer c = x.buffer c := by
  cases c <;> rfl

theorem Store.page_setPage (q p : Nat) (v : PageState) (h : p < 512) :
    (x.setPage q v).page p = if q = p then v else x.page p := by
  unfold Store.page Store.setPage
  rw [Vector.getElem?_setIfInBounds]
  split
  · next same => rw [if_pos (same ▸ h), Option.getD_some]
  · rfl

@[simp] theorem Store.setBuffer_page (b : BufferId) (y : LoadBuffer) (p : Nat) : (x.setBuffer b y).page p = x.page p := by
  cases b <;> rfl

/-- What the termination of the operation in flight leaves alone, and its engine (R153). -/
theorem Store.terminated_keeps : x.terminated.engine = .idle ∧ x.terminated.text = x.text
    ∧ x.terminated.segments = x.segments ∧ x.terminated.lastCompare = x.lastCompare := by
  unfold Store.terminated
  cases engine : x.engine with
  | idle => exact ⟨engine, rfl, rfl, rfl⟩
  | commit b q => cases b <;> exact ⟨rfl, rfl, rfl, rfl⟩
  | compare b q => exact ⟨rfl, rfl, rfl, rfl⟩
  | prepare g l => exact ⟨rfl, rfl, rfl, rfl⟩

/-- The page that a COMMIT was writing is INVALID (R153). -/
theorem Store.terminated_page (p : Nat) (h : p < 512) : x.terminated.page p
    = if x.engine = .commit .bufA p ∨ x.engine = .commit .bufB p then .invalid else x.page p := by
  unfold Store.terminated
  cases engine : x.engine with
  | idle => simp
  | commit b q =>
    refine (Store.setBuffer_page _ b _ p).trans ((x.page_setPage q p .invalid h).trans ?_)
    cases b <;> simp
  | compare b q => simp; rfl
  | prepare g l => simp; rfl

/-- The buffers keep their characters; a COMMIT's is unlocked (R153). -/
theorem Store.terminated_buffer (c : BufferId) : (x.terminated.buffer c).chars = (x.buffer c).chars
    ∧ ((x.terminated.buffer c).locked = true ↔ (x.buffer c).locked = true ∧ ∀ p, x.engine ≠ .commit c p) := by
  unfold Store.terminated
  cases engine : x.engine with
  | idle => simp
  | compare b q => simp [Store.buffer_withEngine]
  | prepare g l => simp [Store.buffer_withEngine]
  | commit b q =>
    obtain rfl | other := eq_or_ne c b
    · simp [Store.buffer_withEngine, Store.buffer_setBuffer_self]
    · simp [Store.buffer_withEngine, Store.buffer_setBuffer_of_ne _ _ other, Store.buffer_setPage, other.symm]

end Store

/-! ## ENGINE-RESET (R191) -/

section Reset

variable (s : State)

/-- The deck that is PREPARING is given up, and with it a pending take; the rest of the lane stays (R153). -/
theorem abandonDeck_lane (env : LaneEnv) (r : LaneRun) :
    (abandonDeck env r).lane = { r.lane with deck := (abandonDeck env r).lane.deck } := by
  unfold abandonDeck dropTake
  split <;> rfl

theorem State.report_eq (k : ReportKind) (l : Option LaneId) (w : Option WriterId) (v : Option Nat) :
    s.report k l w v = { s with
      reports := (s.report k l w v).reports, reportOverflow := (s.report k l w v).reportOverflow } :=
  s.queueReports_eq [s.note k l w v]

theorem State.report_lane (k : ReportKind) (l : Option LaneId) (w : Option WriterId) (v : Option Nat) (m : LaneId) :
    (s.report k l w v).lane m = s.lane m := by
  rw [State.report_eq]; rfl

/-- STORE-RESET acts on the store, the lanes and the report unit (R153). -/
theorem State.resetStore_eq : s.resetStore = { s with
    store := s.store.terminated, lanes := s.resetStore.lanes, reports := s.resetStore.reports
    reportOverflow := s.resetStore.reportOverflow } := by
  unfold State.resetStore
  cases engine : s.store.engine with
  | idle =>
    have same : s.store.terminated = s.store := by rw [Store.terminated, engine]
    rw [same]
  | commit b p | compare b p =>
    dsimp only
    rw [State.report_eq]
    rfl
  | prepare g l =>
    dsimp only
    rw [State.report_eq, State.onLane_eq]
    rfl

/-- Of a lane it changes the deck alone. -/
theorem State.resetStore_lane (l : LaneId) :
    s.resetStore.lane l = { s.lane l with deck := (s.resetStore.lane l).deck } := by
  unfold State.resetStore
  cases s.store.engine with
  | idle => rfl
  | commit b p | compare b p =>
    dsimp only
    rw [State.report_lane]
    rfl
  | prepare g m =>
    dsimp only
    rw [State.report_lane]
    obtain rfl | other := eq_or_ne l m
    · rw [State.onLane_lane_self]
      exact abandonDeck_lane _ _
    · rw [State.onLane_lane_of_ne _ _ other]
      rfl

theorem State.resetReports_eq : s.resetReports
    = { s with reports := [s.note .engineReset none none none], reportOverflow := false } :=
  State.report_of_room { s with reports := [], reportOverflow := false } _ _ _ _ (Nat.zero_lt_succ 31)

/-- The part once ENGINE-RESET has reset the store and the other blocks, before the ROLE frames. -/
def State.blocksReset (s : State) : State := s.heard.resetStore.resetBlocks

theorem State.blocksReset_eq : s.blocksReset = { s.heard with
    writers := s.blocksReset.writers, lanes := s.blocksReset.lanes, following := false, followedSerial := none
    followedStatus := none, schedule := [], store := s.store.terminated, reports := s.blocksReset.reports
    reportOverflow := s.blocksReset.reportOverflow } :=
  congrArg (fun t : State => { t with
    writers := s.blocksReset.writers, lanes := s.blocksReset.lanes, following := false, followedSerial := none
    followedStatus := none, schedule := [] }) s.heard.resetStore_eq

theorem State.blocksReset_writer (w : WriterId) : s.blocksReset.writer w = (s.writer w).reset := by
  have same : s.heard.resetStore.writer w = s.writer w := by rw [State.resetStore_eq]; rfl
  rw [State.blocksReset, State.resetBlocks_writer, same]

/-- A lane at its reset values, which keep parameters, counters and the references counted (R68, R85, R110, R169). -/
theorem State.blocksReset_lane (l : LaneId) : s.blocksReset.lane l = (s.lane l).reset s.time.sfc := by
  have time : s.heard.resetStore.time = s.time := by rw [State.resetStore_eq]; rfl
  rw [State.blocksReset, State.resetBlocks_lane, State.resetStore_lane, time]
  rfl

theorem exec_engineReset (answer : s.canAnswer) : exec (.engineReset []) s = .next
    { (announceChanges s.writers s.blocksReset).send .automation (ackOf 0x36 none) with
      reports := [s.note .engineReset none none none], reportOverflow := false } := by
  have acked : engineResetRequest [] s.heard = ((announceChanges s.writers s.blocksReset).resetReports, .ack none) := rfl
  have time : (announceChanges s.writers s.blocksReset).time = s.time := by
    rw [announceChanges_eq, State.blocksReset_eq]; rfl
  have note : (announceChanges s.writers s.blocksReset).note .engineReset none none none
      = s.note .engineReset none none none := by rw [State.note, time]; rfl
  refine congrArg Host.Outcome.next ((requestRow_of_ack 0x36 _ _ s _ none answer rfl acked).trans ?_)
  rw [State.resetReports_eq, note]
  rfl

end Reset

/-- Settles O58: the store, the other blocks with the ROLE frames, then the report unit. -/
theorem engineResetValues : Obligations.EngineResetValues := by
  unfold Obligations.EngineResetValues
  intro s answer
  have told := announceChanges_eq s.blocksReset s.writers
  have store : (announceChanges s.writers s.blocksReset).store = s.store.terminated := by
    rw [told, State.blocksReset_eq]
  obtain ⟨engine, text, segments, lastCompare⟩ := s.store.terminated_keeps
  refine ⟨_, exec_engineReset s answer, ?_, fun w => ?_, fun l => ?_, ?_, ?_, ?_, ?_, fun p hp => ?_, fun b => ?_,
    fun locks b => ?_, ?_, ?_, fun w => ?_⟩
  · exact congrArg (fun t : State => { t with
      writers := (announceChanges s.writers s.blocksReset).writers, lanes := (announceChanges s.writers s.blocksReset).lanes
      store := (announceChanges s.writers s.blocksReset).store
      links := ((announceChanges s.writers s.blocksReset).send .automation (ackOf 0x36 none)).links
      reports := [s.note .engineReset none none none], reportOverflow := false }) (told.trans
      (congrArg (fun t : State => { t with links := (announceChanges s.writers s.blocksReset).links }) s.blocksReset_eq))
  · exact (State.told_writer _ _ (ackOf 0x36 none) w).trans (s.blocksReset_writer w)
  · exact (congrArg (State.lane · l) told).trans (s.blocksReset_lane l)
  · exact (congrArg Store.engine store).trans engine
  · exact (congrArg Store.text store).trans text
  · exact (congrArg Store.segments store).trans segments
  · exact (congrArg Store.lastCompare store).trans lastCompare
  · exact (congrArg (Store.page · p) store).trans (s.store.terminated_page p hp)
  · have buffers := s.store.terminated_buffer b
    rwa [← store] at buffers
  · obtain ⟨-, locked⟩ := s.store.terminated_buffer b
    rw [← store] at locked
    refine Bool.eq_false_iff.mpr fun still => ?_
    obtain ⟨before, other⟩ := locked.mp still
    obtain ⟨p, writing⟩ := locks b before
    exact other p writing
  · exact (State.told_automation _ _ (ackOf 0x36 none)).trans (by rw [State.blocksReset_eq]; rfl)
  · exact PerLane.eq_of_get fun m => (State.told_link_of_ne _ _ (ackOf 0x36 none) (k := .inserter m) (by simp) (by simp)).trans
      (by rw [State.blocksReset_eq]; rfl)
  · have link : s.blocksReset.link (.writer w) = s.link (.writer w) := by rw [State.blocksReset_eq]; rfl
    have role : (s.blocksReset.writer w).role = .idle := by rw [State.blocksReset_writer]; rfl
    have writer := State.told_writer s.blocksReset s.writers (ackOf 0x36 none) w
    refine (State.told_link s.blocksReset s.writers (ackOf 0x36 none) w).trans ?_
    rw [role, link, ← writer, ← State.writer_eq]
    by_cases idle : (s.writer w).role = .idle
    · rw [if_pos idle, if_pos idle]
    · rw [if_neg idle, if_neg idle]
      rfl

end Sys2Proof.Machine
end

section
/-! PROOF. The overlap that a handover drops (R43), and from it O32. -/

namespace Sys2Proof.Machine

theorem overlapsBy_iff (window staged : List Text) (k : Nat) : overlapsBy window staged k = true ↔
    (window.drop (window.length - k)).map (·.map foldCase) = (staged.take k).map (·.map foldCase) := decide_eq_true_iff

/-- The search goes down from its bound, and stops at the first overlap, which 0 always is (R43). -/
theorem overlapUpTo_largest (window staged : List Text) (n : Nat) :
    overlapUpTo window staged n ≤ n ∧ overlapsBy window staged (overlapUpTo window staged n) = true
      ∧ ∀ k, overlapUpTo window staged n < k → k ≤ n → ¬ overlapsBy window staged k = true := by
  induction n with
  | zero =>
    refine ⟨Nat.le_refl 0, ?_, fun k above below => absurd above (Nat.not_lt.mpr below)⟩
    simp [overlapUpTo, overlapsBy_iff]
  | succ n ih =>
    obtain ⟨bound, overlaps, largest⟩ := ih
    unfold overlapUpTo
    split
    · next here => exact ⟨Nat.le_refl _, here, fun k above below => absurd above (Nat.not_lt.mpr below)⟩
    · next apart =>
      refine ⟨Nat.le_succ_of_le bound, overlaps, fun k above below => ?_⟩
      obtain below | rfl := Nat.le_succ_iff.mp below
      · exact largest k above below
      · exact apart

/-- Settles O32. -/
theorem overlapIsTheLargest : Obligations.OverlapIsTheLargest := by
  unfold Obligations.OverlapIsTheLargest
  intro window staged
  obtain ⟨bound, overlaps, largest⟩ :=
    overlapUpTo_largest window staged (min Config.overlapMax (min staged.length window.length))
  exact ⟨bound, (overlapsBy_iff ..).mp overlaps,
    fun k above below => mt (overlapsBy_iff ..).mpr (largest k above below)⟩

end Sys2Proof.Machine
end

section
/-! PROOF. The deck player (R161 to R167): how the units of a deck are timed one by one and at reading pace, the cues that
act on one lane, and the completion that carries out a take; from them O51. -/

namespace Sys2Proof.Machine

/-! ## Composition and timing (R73 to R83, R96) -/

section Timing

/-- Composition does not look at the source or the deck (R96). -/
theorem Lane.composed_withDeck (ln : Lane) (x : Source) (d : Deck) :
    ({ ln with source := x, deck := d } : Lane).composed = { ln.composed with source := x, deck := d } := by
  unfold Lane.composed
  cases ln.engine.queue with
  | nil => rfl
  | cons t rest =>
    dsimp only
    split <;> rfl

/-- Nothing is composed behind a ready next image, or on a FROZEN lane (R96). -/
theorem Lane.composed_of_blocked (ln : Lane) (h : ln.display.nextReady = true ∨ ln.frozen = true) : ln.composed = ln := by
  unfold Lane.composed
  cases ln.engine.queue with
  | nil => rfl
  | cons t rest => exact if_neg fun free => by rcases h with h | h <;> simp [h] at free

/-- One unit of the deck is timed and joins the queue (R81, R83, R164). -/
theorem Lane.played_one (ln : Lane) (t : TimedUnit) (left : List CaptionUnit) : ln.played [t] left =
    { ln.queueing t with
      source := if left = [] then .live else ln.source
      builder := { ln.builder with recent := (t.unit.words.map CapWord.text).foldl joinWindow ln.builder.recent }
      deck :=
        if left = [] then bareDeck .empty ln.deck.pendingTake
        else { ln.deck with
          units := left, nextIndex := ln.deck.nextIndex.map (· + 1), onsets := ln.deck.onsets.drop 1 } } := by
  simp only [Lane.played, List.flatMap_singleton]
  rfl

/-- A unit that comes behind the record within Λmax is not late beyond it (R75, R80). -/
theorem lateness_le_of_behind {p : Params} {record : Option LastTimed} {on : Int} {now : Nat}
    (behind : ∀ x, record = some x → (x.release : Int) + x.minimum ≤ max (on + p.delay - p.lead) now + p.lamMax) :
    lateness record (baseFrame p on now) ≤ p.lamMax := by
  have base := baseFrame_eq p on now
  cases record with
  | none => exact Nat.zero_le _
  | some x =>
    have within := behind x rfl
    show x.release + x.minimum - _ ≤ _
    omega

variable (env : LaneEnv) (r : LaneRun) (g : Nat) {u : CaptionUnit} {left : List CaptionUnit}

/-- SEGMENT_END, where no unit of the segment is left (R167). -/
def segmentEnd (left : List CaptionUnit) : List Report :=
  if left = [] then [{ kind := .segmentEnd, lane := some env.lane, writer := none, value := some g, stamp := env.sfc }]
  else []

/-- R167: a deck without units ends, with SEGMENT_END. -/
theorem exhaust_eq : exhaust env g r =
    { lane := if r.lane.deck.units = [] then { r.lane with source := .live, deck := r.lane.deck.without .empty } else r.lane
      out := r.out ++ segmentEnd env g r.lane.deck.units } := by
  unfold exhaust segmentEnd
  split
  · rfl
  · rw [List.append_nil]

/-- A SCRIPT unit that finds a place in the queue and is not late beyond Λmax joins the queue, its words join the
recent-word window, and composition follows. -/
theorem timeUnit_of_script (now : Nat) {on : Int} (onset : u.onset = some on) {h : Nat} (script : u.origin = .script h)
    (room : r.lane.engine.queue.length < 32)
    (within : lateness r.lane.engine.record (baseFrame r.lane.params on now) ≤ r.lane.params.lamMax) :
    timeUnit env now u r = { r with lane :=
      ({ r.lane.queueing (timedUnit r.lane.params env.rate r.lane.engine now u) with
        builder := { r.lane.builder with
          recent := (u.words.map CapWord.text).foldl joinWindow r.lane.builder.recent } } : Lane).composed } := by
  have base : (timedUnit r.lane.params env.rate r.lane.engine now u).base = baseFrame r.lane.params on now := by
    simp only [timedUnit, onset, Option.getD_some]
  unfold timeUnit joinScriptWords
  simp only [script]
  rw [cutIfLate_of_within env _ r (base ▸ within), appendTimed_of_room env now _ r room, compose_eq]
  rfl

/-- The next unit of a deck as it is timed now with this onset. -/
def LaneRun.nextTimed (u : CaptionUnit) (onset : Nat) : TimedUnit :=
  timedUnit r.lane.params env.rate r.lane.engine env.sfc { u with onset := some (onset : Int) }

variable (onset : Nat)

theorem LaneRun.nextTimed_timedAfter : timedAfter r.lane.params env.rate env.sfc r.lane.engine.record u onset
    (r.nextTimed env u onset) :=
  timedUnit_timedAfter r.lane.params env.rate r.lane.engine env.sfc { u with onset := some (onset : Int) } rfl

/-- The next unit of a deck leaves it, joins the queue, and composition follows; behind the last the deck ends (R164,
R167). -/
theorem timeDeckUnit_eq (units : r.lane.deck.units = u :: left) {h : Nat} (script : u.origin = .script h)
    (room : r.lane.engine.queue.length < 32)
    (within : lateness r.lane.engine.record (baseFrame r.lane.params onset env.sfc) ≤ r.lane.params.lamMax) :
    timeDeckUnit env g u onset r = { lane := (r.lane.played [r.nextTimed env u onset] left).composed
                                     out := r.out ++ segmentEnd env g left } := by
  unfold timeDeckUnit
  dsimp only
  rw [timeUnit_of_script env (r.editDeck fun d =>
    { d with units := d.units.drop 1, nextIndex := d.nextIndex.map (· + 1), onsets := d.onsets.drop 1 }) env.sfc
    (u := { u with onset := some (onset : Int) }) rfl script room within, exhaust_eq]
  have drop : r.lane.deck.units.drop 1 = left := by rw [units, List.drop_one, List.tail_cons]
  simp only [composed_deck, LaneRun.editDeck, LaneRun.edit, Lane.queueing, drop]
  cases left with
  | nil =>
    simp only [if_true, ← Lane.composed_withDeck, Lane.played_one]
    rfl
  | cons v vs =>
    simp only [List.cons_ne_nil, if_false, Lane.played_one]
    rfl

end Timing

/-! ## The units of a FROZEN lane under AUTO pacing (R165, R166) -/

section Pace

/-- A unit as it is timed where nothing delays it: released at its onset plus D less A, for its full reading time. -/
def Params.pacedUnit (p : Params) (rate : Rate) (ref onset : Nat) (u : CaptionUnit) : TimedUnit :=
  { unit := { u with onset := some (onset : Int) }, base := onset + p.delay - p.lead, level := .level0
    minimum := baseMinimum p rate u.count, release := onset + p.delay - p.lead, ref := ref }

/-- Units timed one behind another, each for its full reading time, from this onset on (R165). -/
def Params.pacedUnits (p : Params) (rate : Rate) : Nat → Nat → List CaptionUnit → List TimedUnit
  | _, _, [] => []
  | ref, onset, u :: us =>
    p.pacedUnit rate ref onset u :: p.pacedUnits rate (ref + 1) (onset + baseMinimum p rate u.count) us

theorem Params.pacedUnits_length (p : Params) (rate : Rate) (us : List CaptionUnit) (ref onset : Nat) :
    (p.pacedUnits rate ref onset us).length = us.length := by
  induction us generalizing ref onset with
  | nil => rfl
  | cons u us ih => exact congrArg (· + 1) (ih ..)

/-- Each unit is timed with its own pacing onset (R165). -/
theorem Params.pacedUnits_getElem? (p : Params) (rate : Rate) (us : List CaptionUnit) (ref onset i : Nat) {t : TimedUnit}
    (at_i : (p.pacedUnits rate ref onset us)[i]? = some t) :
    ∃ u o, us[i]? = some u ∧ (pacingOnsets p rate onset us)[i]? = some o ∧ t = p.pacedUnit rate (ref + i) o u := by
  induction us generalizing ref onset i with
  | nil => simp [pacedUnits] at at_i
  | cons u us ih =>
    rw [pacedUnits] at at_i
    cases i with
    | zero => exact ⟨u, onset, rfl, rfl, (Option.some.inj at_i).symm⟩
    | succ i =>
      obtain ⟨v, o, hv, ho, rfl⟩ := ih (ref + 1) (onset + baseMinimum p rate u.count) i at_i
      exact ⟨v, o, hv, ho, by rw [Nat.add_assoc, Nat.add_comm 1]⟩

/-- The pacing onsets are those of Safety (R165). -/
theorem pacingOnsets_onsetsOf (p : Params) (rate : Rate) (us : List CaptionUnit) (first : Nat) :
    onsetsOf p rate first us (pacingOnsets p rate first us) := by
  induction us generalizing first with
  | nil => exact ⟨rfl, by simp [pacingOnsets], by simp⟩
  | cons u us ih =>
    obtain ⟨length, head, steps⟩ := ih (first + baseMinimum p rate u.count)
    refine ⟨congrArg (· + 1) length, fun o ho => (Option.some.inj ho).symm, fun i v o w hv ho hw => ?_⟩
    cases i with
    | zero =>
      cases hv
      cases ho
      exact head w (List.head?_eq_getElem? ▸ hw)
    | succ i => exact steps i v o w hv ho hw

/-- A unit is shown for at least Hmin, and so for at least Hfloor and 12 frames (R77, R89). -/
theorem Params.inRange.shown {p : Params} (range : p.inRange) (rate : Rate) (n : Nat) :
    p.hFloor ≤ baseMinimum p rate n ∧ 12 ≤ baseMinimum p rate n := by
  obtain ⟨-, -, -, -, -, low, -, ordered, -, -, floor, -⟩ := range
  have least : p.hMin ≤ baseMinimum p rate n := by
    unfold baseMinimum clamp
    split_ifs <;> omega
  omega

/-- A unit with this onset is behind nothing: its desired frame is not past, and the unit timed last has had its reading
time by then (R74, R75). -/
def Lane.unhurried (ln : Lane) (sfc onset : Nat) : Prop :=
  sfc + ln.params.lead ≤ onset + ln.params.delay
    ∧ ∀ x, ln.engine.record = some x → x.release < onset + ln.params.delay - ln.params.lead
      ∧ x.release + x.minimum ≤ onset + ln.params.delay - ln.params.lead

variable (env : LaneEnv) (r : LaneRun) {onset : Nat} (range : r.lane.params.inRange)
  (unhurried : r.lane.unhurried env.sfc onset)

include unhurried

theorem baseFrame_of_unhurried :
    baseFrame r.lane.params onset env.sfc = onset + r.lane.params.delay - r.lane.params.lead := by
  have base := baseFrame_eq r.lane.params onset env.sfc
  obtain ⟨ahead, -⟩ := unhurried
  omega

theorem lateness_of_unhurried :
    lateness r.lane.engine.record (baseFrame r.lane.params onset env.sfc) = 0 := by
  rw [baseFrame_of_unhurried env r unhurried]
  cases record : r.lane.engine.record with
  | none => rfl
  | some x => exact Nat.sub_eq_zero_of_le (unhurried.2 x record).2

include range

/-- A unit that is behind nothing is timed for its full reading time (R74 to R79). -/
theorem LaneRun.nextTimed_of_unhurried (u : CaptionUnit) :
    r.nextTimed env u onset = r.lane.params.pacedUnit env.rate r.lane.engine.nextRef onset u := by
  have late := lateness_of_unhurried env r unhurried
  have base := baseFrame_of_unhurried env r unhurried
  have floor := (range.shown env.rate u.count).1
  have release : releaseFrame r.lane.params r.lane.engine.record (onset + r.lane.params.delay - r.lane.params.lead) 0
      = onset + r.lane.params.delay - r.lane.params.lead := by
    unfold releaseFrame
    rw [Nat.zero_min, Nat.add_zero]
    cases record : r.lane.engine.record with
    | none => rfl
    | some x => exact Nat.max_eq_left (unhurried.2 x record).1
  have level : catchUp r.lane.params 0 = .level0 := if_pos (Nat.zero_le _)
  have minimum : effectiveMinimum r.lane.params .level0 (baseMinimum r.lane.params env.rate u.count)
      = baseMinimum r.lane.params env.rate u.count := Nat.max_eq_left floor
  unfold LaneRun.nextTimed timedUnit
  simp only [Option.getD_some, late]
  rw [base, level, release]
  exact congrArg (fun m => ({ Params.pacedUnit r.lane.params env.rate r.lane.engine.nextRef onset u with
    minimum := m } : TimedUnit)) minimum

end Pace

/-! ## Feeding (R166) -/

section Feeding

/-- Timing no unit changes nothing. -/
theorem Lane.played_nil (ln : Lane) (some_left : ln.deck.units ≠ []) : ln.played [] ln.deck.units = ln := by
  have same : ln.deck.nextIndex.map (· + 0) = ln.deck.nextIndex := Option.map_id' ..
  simp only [Lane.played, some_left, if_false, List.append_nil, List.length_nil, same, List.drop_zero]
  rfl

/-- Units timed behind a unit of the same deck are timed with it. -/
theorem Lane.played_played (ln : Lane) (t : TimedUnit) (ts : List TimedUnit) {left : List CaptionUnit} (us : List CaptionUnit)
    (some_left : left ≠ []) : (ln.played [t] left).played ts us = ln.played (t :: ts) us := by
  have index : (ln.deck.nextIndex.map (· + 1)).map (· + ts.length) = ln.deck.nextIndex.map (· + (ts.length + 1)) := by
    rw [Option.map_map]
    congr 1
    funext n
    exact Nat.add_right_comm n 1 ts.length
  rw [Lane.played_one]
  simp only [Lane.played, some_left, if_false, Lane.queueing, List.flatMap_cons, List.foldl_append, List.append_assoc,
    List.singleton_append, List.getLast?_cons, index, List.length_cons, List.drop_drop, Nat.add_comm 1]
  cases ts.getLast? <;> rfl

variable (env : LaneEnv) (n : Nat) (r : LaneRun)

/-- A full queue takes no deck unit. -/
theorem feedUpTo_of_full (full : 32 ≤ r.lane.engine.queue.length) : feedUpTo env n r = r := by
  cases n with
  | zero => rfl
  | succ n =>
    unfold feedUpTo
    split
    · exact if_neg (Nat.not_lt.mpr full)
    · rfl

variable {g onset : Nat} {u : CaptionUnit} {left : List CaptionUnit}

/-- A free place takes the next unit of an AUTO deck, with its own onset, where nothing is composed. -/
theorem feedUpTo_succ (playing : r.lane.deck.state = .playing g) (auto : r.lane.deck.pacing = some .auto)
    (units : r.lane.deck.units = u :: left) (next : r.lane.deck.onsets.head? = some onset) {h : Nat}
    (script : u.origin = .script h) (room : r.lane.engine.queue.length < 32)
    (within : lateness r.lane.engine.record (baseFrame r.lane.params onset env.sfc) ≤ r.lane.params.lamMax)
    (blocked : r.lane.display.nextReady = true ∨ r.lane.frozen = true) :
    feedUpTo env (n + 1) r = feedUpTo env n { lane := r.lane.played [r.nextTimed env u onset] left
                                              out := r.out ++ segmentEnd env g left } := by
  rw [feedUpTo, playing, auto, units]
  dsimp only
  rw [if_pos (by exact room), List.headD_eq_head?_getD, next, Option.getD_some,
    timeDeckUnit_eq env r g onset units script room within, Lane.composed_of_blocked _ (by exact blocked)]

/-- The last free place takes the next unit, and no other. -/
theorem feed_of_last (playing : r.lane.deck.state = .playing g) (auto : r.lane.deck.pacing = some .auto)
    (units : r.lane.deck.units = u :: left) (next : r.lane.deck.onsets.head? = some onset) {h : Nat}
    (script : u.origin = .script h) (last : r.lane.engine.queue.length = 31)
    (within : lateness r.lane.engine.record (baseFrame r.lane.params onset env.sfc) ≤ r.lane.params.lamMax)
    (ready : r.lane.display.nextReady = true) :
    feed env r = { lane := r.lane.played [r.nextTimed env u onset] left, out := r.out ++ segmentEnd env g left } := by
  rw [feed, units, List.length_cons,
    feedUpTo_succ env left.length r playing auto units next script (by omega) within (.inl ready)]
  refine feedUpTo_of_full env _ _ ?_
  simp only [Lane.played, List.length_append, List.length_singleton]
  omega

/-- A FROZEN lane whose AUTO deck holds these units, all of the script, and is behind nothing from this onset on. -/
structure Lane.Paces (ln : Lane) (rate : Rate) (sfc g onset : Nat) (us : List CaptionUnit) : Prop where
  playing : ln.deck.state = .playing g
  auto : ln.deck.pacing = some .auto
  units : ln.deck.units = us
  onsets : ln.deck.onsets = pacingOnsets ln.params rate onset us
  script : ∀ u ∈ us, ∃ h, u.origin = .script h
  frozen : ln.frozen = true
  range : ln.params.inRange
  unhurried : ln.unhurried sfc onset

/-- The next unit is released where the one before it has had its reading time, so that it is behind nothing (R165). -/
theorem Lane.Paces.played {ln : Lane} {rate : Rate} {sfc : Nat} (paces : ln.Paces rate sfc g onset (u :: left))
    (some_left : left ≠ []) : (ln.played [ln.params.pacedUnit rate ln.engine.nextRef onset u] left).Paces rate sfc g
      (onset + baseMinimum ln.params rate u.count) left := by
  have shown := (paces.range.shown rate u.count).2
  obtain ⟨ahead, -⟩ := paces.unhurried
  rw [Lane.played_one]
  simp only [some_left, if_false]
  exact
    { playing := paces.playing, auto := paces.auto, units := rfl
      onsets := by rw [paces.onsets]; rfl
      script := fun v hv => paces.script v (List.mem_cons_of_mem u hv)
      frozen := paces.frozen, range := paces.range
      unhurried := by
        refine ⟨?_, fun x hx => ?_⟩
        · show sfc + ln.params.lead ≤ onset + baseMinimum ln.params rate u.count + ln.params.delay
          omega
        · obtain rfl := Option.some.inj hx
          show onset + ln.params.delay - ln.params.lead
              < onset + baseMinimum ln.params rate u.count + ln.params.delay - ln.params.lead
            ∧ onset + ln.params.delay - ln.params.lead + baseMinimum ln.params rate u.count
              ≤ onset + baseMinimum ln.params rate u.count + ln.params.delay - ln.params.lead
          omega }

/-- Units of an AUTO deck move at reading pace into the places that are free (R165, R166). -/
theorem feedUpTo_of_paces (us : List CaptionUnit) (some_units : us ≠ [])
    (paces : r.lane.Paces env.rate env.sfc g onset us) : feedUpTo env us.length r =
      { lane := r.lane.played
          ((r.lane.params.pacedUnits env.rate r.lane.engine.nextRef onset us).take (32 - r.lane.engine.queue.length))
          (us.drop (32 - r.lane.engine.queue.length))
        out := r.out ++ segmentEnd env g (us.drop (32 - r.lane.engine.queue.length)) } := by
  induction us generalizing r onset with
  | nil => exact absurd rfl some_units
  | cons u left ih =>
    by_cases room : r.lane.engine.queue.length < 32
    · obtain ⟨h, script⟩ := paces.script u (List.mem_cons_self ..)
      have late := lateness_of_unhurried env r paces.unhurried
      have places : 32 - r.lane.engine.queue.length = 32 - (r.lane.engine.queue.length + 1) + 1 := by omega
      rw [List.length_cons, feedUpTo_succ env left.length r paces.playing paces.auto paces.units
        (by rw [paces.onsets]; rfl) script room (late ▸ Nat.zero_le _) (.inr paces.frozen),
        r.nextTimed_of_unhurried env paces.range paces.unhurried, places]
      simp only [Params.pacedUnits, List.take_succ_cons, List.drop_succ_cons]
      by_cases ended : left = []
      · subst ended
        simp only [Params.pacedUnits, List.take_nil, List.drop_nil]
        rfl
      · have going : segmentEnd env g left = [] := if_neg ended
        have length (t : TimedUnit) : (r.lane.played [t] left).engine.queue.length
            = r.lane.engine.queue.length + 1 := List.length_append ..
        rw [ih _ ended (paces.played ended), Lane.played_played _ _ _ _ ended, length, going, List.append_nil]
        rfl
    · have full : 32 - r.lane.engine.queue.length = 0 := by omega
      rw [feedUpTo_of_full env _ r (Nat.not_lt.mp room), full, List.take_zero, List.drop_zero, ← paces.units,
        Lane.played_nil _ (paces.units ▸ some_units), paces.units, segmentEnd, if_neg some_units, List.append_nil]

end Feeding

/-! ## The take (R161 to R165) -/

section Take

variable (env : LaneEnv) (r : LaneRun) (g : Nat) {frame : Nat} (quiet : r.lane.noLiveText)

include quiet

/-- Without live text a take closes and times nothing (R162). -/
theorem timeAll_closeOpen_of_noLiveText (cause : CloseCause) : timeAll env (closeOpen env cause r) = r := by
  obtain ⟨closed, empty⟩ := quiet
  have same : ({ r.lane.builder with provisional := [] } : Builder) = r.lane.builder := by rw [← empty]
  have unopened : closeOpen env cause r = r := by simp only [closeOpen, closed]
  rw [unopened, timeAll, empty, List.foldl_nil]
  exact congrArg (fun b => ({ r with lane := { r.lane with builder := b } } : LaneRun)) same

/-- Under STEPPED pacing a take times the first unit, with the cue frame as its onset (R162, R164). -/
theorem carryOutTake_of_stepped (stepped : r.lane.params.pacing = .stepped) {u : CaptionUnit} {left : List CaptionUnit}
    (units : r.lane.deck.units = u :: left) {h : Nat} (script : u.origin = .script h)
    (room : r.lane.engine.queue.length < 32)
    (within : lateness r.lane.engine.record (baseFrame r.lane.params frame env.sfc) ≤ r.lane.params.lamMax) :
    carryOutTake env g frame r =
      { lane := ((r.lane.taken g .stepped []).played [r.nextTimed env u frame] left).composed
        out := r.out ++ segmentEnd env g left } := by
  unfold carryOutTake
  rw [timeAll_closeOpen_of_noLiveText env r quiet]
  simp only [LaneRun.edit, stepped, units]
  rw [← units]
  exact timeDeckUnit_eq env { r with lane := r.lane.taken g .stepped [] } g frame units script room within

/-- Under AUTO pacing, on a FROZEN lane without a timeline, a take fixes every onset and moves units until the queue is
full (R162, R165, R166). -/
theorem carryOutTake_of_auto (auto : r.lane.params.pacing = .auto) (frozen : r.lane.frozen = true)
    (range : r.lane.params.inRange) (ahead : env.sfc + r.lane.params.lead ≤ frame + r.lane.params.delay)
    (free : r.lane.engine.queue = []) (unrecorded : r.lane.engine.record = none)
    (script : ∀ u ∈ r.lane.deck.units, ∃ h, u.origin = .script h) : carryOutTake env g frame r =
      { lane := (r.lane.taken g .auto (pacingOnsets r.lane.params env.rate frame r.lane.deck.units)).played
          ((r.lane.params.pacedUnits env.rate r.lane.engine.nextRef frame r.lane.deck.units).take 32)
          (r.lane.deck.units.drop 32)
        out := r.out ++ segmentEnd env g (r.lane.deck.units.drop 32) } := by
  have paces : (r.lane.taken g .auto (pacingOnsets r.lane.params env.rate frame r.lane.deck.units)).Paces env.rate env.sfc g
      frame r.lane.deck.units :=
    { playing := rfl, auto := rfl, units := rfl, onsets := rfl, script := script, frozen := frozen, range := range
      unhurried := ⟨ahead, fun x hx => absurd (unrecorded.symm.trans hx) nofun⟩ }
  unfold carryOutTake
  rw [timeAll_closeOpen_of_noLiveText env r quiet]
  simp only [LaneRun.edit, auto]
  split
  · next none_left =>
    rw [exhaust_eq]
    simp only [none_left, if_true, List.drop_nil, Params.pacedUnits, List.take_nil, Lane.played, List.append_nil]
    rfl
  · next units stepped => cases stepped
  · next units _ =>
    have places : 32 - (r.lane.taken g .auto (pacingOnsets r.lane.params env.rate frame r.lane.deck.units)).engine.queue.length
        = 32 := congrArg (fun q : List TimedUnit => 32 - q.length) free
    have fed := feedUpTo_of_paces env { r with lane := r.lane.taken g .auto _ } r.lane.deck.units
      (by rw [units]; simp) paces
    dsimp only at fed
    rw [places] at fed
    exact fed

end Take

section Layout

variable (env : LaneEnv) (p : Params) (g : Nat)

/-- Every unit of a layout is of the segment laid out (R158). -/
def ScriptLayout.OfSegment (y : ScriptLayout) : Prop := ∀ u ∈ y.done ++ y.current.toList, u.origin = .script g

variable {g} {y : ScriptLayout}

theorem ScriptLayout.OfSegment.close (own : y.OfSegment g) (cause : CloseCause) : (y.close cause).OfSegment g := by
  unfold ScriptLayout.close
  split
  · exact own
  · next v current =>
    intro u hu
    simp only [Option.toList_none, List.append_nil, List.mem_append, List.mem_singleton] at hu
    obtain hu | rfl := hu
    · exact own u (List.mem_append_left _ hu)
    · exact own v (List.mem_append_right _ (by rw [current]; exact List.mem_singleton_self v))

theorem ScriptLayout.OfSegment.create (own : ∀ u ∈ y.done, u.origin = .script g) (w : CapWord) :
    (y.create env p g w).OfSegment g := by
  intro u hu
  obtain hu | hu := List.mem_append.mp hu
  · exact own u hu
  · rw [List.mem_singleton.mp hu]
    rfl

theorem ScriptLayout.OfSegment.lay (own : y.OfSegment g) (token : ScriptToken) : (y.lay env p g token).OfSegment g := by
  have closed (z : ScriptLayout) (hz : z.OfSegment g) : ∀ u ∈ z.done, u.origin = .script g :=
    fun u hu => hz u (List.mem_append_left _ hu)
  cases token with
  | brk => exact own.close .brk
  | speaker i =>
    have after := own.close .speaker
    unfold ScriptLayout.lay
    dsimp only
    split <;> exact after
  | word w =>
    unfold ScriptLayout.lay
    dsimp only
    split
    · exact .create env p (closed y own) w
    · next v current =>
      split
      · intro u hu
        obtain hu | hu := List.mem_append.mp hu
        · exact closed y own u hu
        · rw [List.mem_singleton.mp hu]
          exact own v (List.mem_append_right _ (by rw [current]; exact List.mem_singleton_self v))
      · exact .create env p (closed _ (own.close .full)) w

/-- A segment's layout has only units of the segment (R158). -/
theorem layoutScript_origin (t : Text) : ∀ u ∈ (layoutScript env p g t).1, u.origin = .script g := by
  have laid (tokens : List ScriptToken) (y : ScriptLayout) (own : y.OfSegment g) :
      (tokens.foldl (ScriptLayout.lay env p g) y).OfSegment g := by
    induction tokens generalizing y with
    | nil => exact own
    | cons token tokens ih => exact ih _ (own.lay env p token)
  exact fun u hu => (laid (readScript t) _ (by simp [ScriptLayout.OfSegment])).close .brk u (List.mem_append_left _ hu)

end Layout

/-! ## Cues on one lane (R118 to R121) -/

section Cues

@[simp] theorem State.cueHeard_lane (s : State) (broadcast : Bool) (l : LaneId) :
    (s.cueHeard broadcast).lane l = s.lane l := by
  cases broadcast <;> rfl

theorem State.cueHeard_setLane (s : State) (broadcast : Bool) (l : LaneId) (ln : Lane) :
    (s.setLane l ln).cueHeard broadcast = (s.cueHeard broadcast).setLane l ln := by
  cases broadcast <;> rfl

/-- A mask addresses the same lanes while their parameters stay (R120). -/
theorem State.onlyAddresses_setLane (s : State) (l : LaneId) (ln : Lane) {mask : Byte}
    (same : ln.params = (s.lane l).params) (only : s.onlyAddresses mask l) : (s.setLane l ln).onlyAddresses mask l := by
  obtain ⟨some_group, lanes⟩ := only
  refine ⟨some_group, fun m => ?_⟩
  by_cases h : m = l
  · subst h
    rw [State.lane_setLane_self, same]
    exact lanes m
  · rw [State.lane_setLane_of_ne s ln h]
    exact lanes m

theorem State.follows_of_not (s : State) (l : LaneId) (h : l = .lane1 → s.following = false) : s.follows l = false := by
  cases l with
  | lane0 => rfl
  | lane1 => exact h rfl

/-- The part in which a deck plays, in the words of Safety (R167). -/
theorem State.playing_eq (s : State) (l : LaneId) (ln : Lane) (g : Nat) (left : List CaptionUnit) :
    { s.setLane l ln with reports := s.reports ++ segmentEnd (s.env l) g left } = s.playing l ln g left := by
  unfold State.playing segmentEnd
  split
  · rfl
  · rw [List.append_nil]

theorem segmentEnd_length (env : LaneEnv) (g : Nat) (left : List CaptionUnit) : (segmentEnd env g left).length ≤ 1 := by
  unfold segmentEnd
  split <;> simp

variable {s : State} {l : LaneId} {broadcast : Bool} {mask tag segment a b c : Byte}
  (only : s.onlyAddresses mask l) (running : (s.lane l).state = .running) (room : broadcast = true ∨ s.canAnswer)
  {e : Byte × CueKind × (Bool → List Byte → Instr)} (mem : e ∈ cueTable) (good : e.2.1 = .take → segment.toNat ≤ 63)
  (own : e.2.1 ≠ .join ∧ e.2.1 ≠ .split)

include only running room mem good own

/-- A cue that addresses one RUNNING lane does what that lane's blocks do (R120, R121). -/
theorem exec_cue_onLane : exec (e.2.2 broadcast (immediateCue mask tag segment a b c)) s = .next (cueTaken broadcast
    (s.heard.onLane l (laneCue (s.follows l) (immediate e.2.1 mask tag segment)), .ack none)) := by
  have acts : s.heard.cueOnLane (immediate e.2.1 mask tag segment) l
      = s.heard.onLane l (laneCue (s.follows l) (immediate e.2.1 mask tag segment)) := by
    have runs : s.heard.running l = true := decide_eq_true running
    unfold State.cueOnLane
    split
    · next join => exact absurd join own.1
    · next split => exact absurd split own.2
    · rw [if_pos runs, State.heard_follows]
  rw [exec_cue_immediate mem s broadcast mask tag segment a b c room good,
    State.executeCue_only s.heard (immediate e.2.1 mask tag segment) l only, acts]

/-- A cue by which that lane's blocks queue reports that find room. -/
theorem exec_cue_of_run {ln : Lane} {rs : List Report} (run : laneCue (s.follows l) (immediate e.2.1 mask tag segment)
      (s.env l) { lane := s.lane l, out := [] } = { lane := ln, out := rs }) (free : s.reports.length + rs.length ≤ 32) :
    exec (e.2.2 broadcast (immediateCue mask tag segment a b c)) s
      = .next { (s.cueHeard broadcast).setLane l ln with reports := s.reports ++ rs } := by
  rw [exec_cue_onLane only running room mem good own, State.onLane_of_run s.heard l run free]
  cases broadcast <;> rfl

/-- A cue by which that lane's blocks queue no report. -/
theorem exec_cue_of_quiet {ln : Lane} (run : laneCue (s.follows l) (immediate e.2.1 mask tag segment) (s.env l)
      { lane := s.lane l, out := [] } = { lane := ln, out := [] }) :
    exec (e.2.2 broadcast (immediateCue mask tag segment a b c)) s = .next ((s.cueHeard broadcast).setLane l ln) := by
  have quiet := State.onLane_of_quiet s.heard l _ (congrArg LaneRun.out run)
  rw [exec_cue_onLane only running room mem good own, quiet]
  simp only [State.heard_env, State.heard_lane, run]
  cases broadcast <;> rfl

/-- A cue that the deck player refuses (R132, R161). -/
theorem exec_cue_of_refused {reason : Reason} (run : laneCue (s.follows l) (immediate e.2.1 mask tag segment) (s.env l)
      { lane := s.lane l, out := [] } = refuseCue (s.env l) reason tag.toNat { lane := s.lane l, out := [] })
    (report : s.canReport) : exec (e.2.2 broadcast (immediateCue mask tag segment a b c)) s = .next
      { s.cueHeard broadcast with
        reports := s.reports ++ [s.note (.refuse reason) (some l) none (some tag.toNat)] } := by
  rw [exec_cue_of_run only running room mem good own run report]
  refine congrArg (fun t : State => Host.Outcome.next { t with
    reports := s.reports ++ [s.note (.refuse reason) (some l) none (some tag.toNat)] }) ?_
  exact (congrArg _ (s.cueHeard_lane broadcast l).symm).trans ((s.cueHeard broadcast).setLane_lane l)

/-- A cue by which the deck plays on. -/
theorem exec_cue_of_playing {ln : Lane} {g : Nat} {left : List CaptionUnit} (run : laneCue (s.follows l)
      (immediate e.2.1 mask tag segment) (s.env l) { lane := s.lane l, out := [] }
        = { lane := ln, out := segmentEnd (s.env l) g left })
    (report : s.canReport) : exec (e.2.2 broadcast (immediateCue mask tag segment a b c)) s
      = .next ((s.cueHeard broadcast).playing l ln g left) := by
  rw [exec_cue_of_run only running room mem good own run
    ((Nat.add_le_add_left (segmentEnd_length ..) _).trans report), ← State.playing_eq]
  cases broadcast <;> rfl

end Cues

/-! ### TAKE, ADVANCE and STEP -/

section Cued

theorem mem_cueTable_take : (9, CueKind.take, Instr.takeCue) ∈ cueTable := by simp [cueTable]
theorem mem_cueTable_advance : (10, CueKind.advance, Instr.advance) ∈ cueTable := by simp [cueTable]
theorem mem_cueTable_step : (4, CueKind.step, Instr.stepCue) ∈ cueTable := by simp [cueTable]

variable (env : LaneEnv) (r : LaneRun) (segment tag : Nat)

theorem laneTake_of_ready (ready : r.lane.deck.state = .ready segment) :
    laneTake false segment tag env r = carryOutTake env segment env.sfc r := by
  simp only [laneTake, ready, Bool.false_eq_true, if_false, if_true]

theorem laneTake_of_preparing (preparing : r.lane.deck.state = .preparing segment) (free : r.lane.deck.pendingTake = none) :
    laneTake false segment tag env r
      = r.editDeck fun d => { d with pendingTake := some { frame := env.sfc, tag := tag } } := by
  simp only [laneTake, preparing, free, Bool.false_eq_true, if_false, if_true]

/-- A TAKE is refused where the deck is neither READY with the segment nor PREPARING it without a take (R161). -/
theorem laneTake_of_other (unready : r.lane.deck.state ≠ .ready segment)
    (held : r.lane.deck.state = .preparing segment → r.lane.deck.pendingTake ≠ none) :
    laneTake false segment tag env r = refuseCue env .takeRefused tag r := by
  simp only [laneTake, Bool.false_eq_true, if_false]
  split
  · next g ready => exact if_neg fun same : g = segment => unready (same ▸ ready)
  · next g preparing free => exact if_neg fun same : g = segment => held (same ▸ preparing) free
  · rfl

theorem laneAdvance_of_stepped {g : Nat} {u : CaptionUnit} {left : List CaptionUnit}
    (playing : r.lane.deck.state = .playing g) (stepped : r.lane.deck.pacing = some .stepped)
    (units : r.lane.deck.units = u :: left) : laneAdvance tag env r = timeDeckUnit env g u env.sfc r := by
  simp only [laneAdvance, playing, stepped, units]

/-- An ADVANCE is refused where no STEPPED deck plays (R164). -/
theorem laneAdvance_of_other (other : ∀ g, r.lane.deck.state = .playing g → r.lane.deck.pacing ≠ some .stepped) :
    laneAdvance tag env r = refuseCue env .takeRefused tag r := by
  unfold laneAdvance
  split
  · next g u left playing stepped _ => exact absurd stepped (other g playing)
  · rfl

end Cued

/-! ## A place freed by a STEP (R125, R166) -/

section Freed

/-- A release on a lane that is not FROZEN makes the head of the queue the next unit, and touches neither the source nor
the deck (R96, R99). -/
theorem Lane.released_of_waiting (ln : Lane) (sfc : Nat) {t : TimedUnit} {rest : List TimedUnit}
    (queue : ln.engine.queue = t :: rest) (free : ln.frozen = false) :
    (ln.released sfc).engine = { ln.engine with queue := rest } ∧ (ln.released sfc).display.nextReady = true
      ∧ (ln.released sfc).params = ln.params := by
  have ready : (ln.display.releasedAt sfc).nextReady = false := rfl
  simp only [Lane.released, Lane.composed, queue, ready, free, and_self, if_true]

theorem Lane.released_withDeck (ln : Lane) (sfc : Nat) (d : Deck) :
    ({ ln with deck := d } : Lane).released sfc = { ln.released sfc with deck := d } := by
  unfold Lane.released Lane.composed
  cases ln.engine.queue with
  | nil => rfl
  | cons t rest =>
    dsimp only
    split <;> rfl

theorem Lane.released_deck (ln : Lane) (sfc : Nat) : (ln.released sfc).deck = ln.deck := composed_deck _

/-- What a STEP of a HELD lane does, with the next image ready. -/
theorem laneStep_of_held (env : LaneEnv) (r : LaneRun) (held : r.lane.held = true) (free : r.lane.frozen = false)
    (ready : r.lane.display.nextReady = true) :
    laneStep env r = feed env { r with lane := r.lane.released env.sfc } := by
  unfold laneStep
  rw [if_pos ⟨held, by rw [free]; exact Bool.false_ne_true, ready⟩, composeAndFeed, compose_eq]
  rfl

/-- The place that a STEP frees in a full queue takes the next unit of an AUTO deck. -/
theorem laneStep_of_full (env : LaneEnv) (r : LaneRun) {g onset : Nat} {u : CaptionUnit} {left : List CaptionUnit}
    (held : r.lane.held = true) (free : r.lane.frozen = false) (ready : r.lane.display.nextReady = true)
    (full : r.lane.engine.queue.length = 32) (playing : r.lane.deck.state = .playing g)
    (auto : r.lane.deck.pacing = some .auto) (units : r.lane.deck.units = u :: left)
    (next : r.lane.deck.onsets.head? = some onset) {h : Nat} (script : u.origin = .script h)
    (within : lateness r.lane.engine.record (baseFrame r.lane.params onset env.sfc) ≤ r.lane.params.lamMax) :
    ∃ t, timedAfter r.lane.params env.rate env.sfc r.lane.engine.record u onset t
      ∧ laneStep env r = { lane := (r.lane.released env.sfc).played [t] left, out := r.out ++ segmentEnd env g left } := by
  obtain ⟨t, rest, queue⟩ := List.exists_cons_of_length_pos (l := r.lane.engine.queue) (by omega)
  have deck := r.lane.released_deck env.sfc
  obtain ⟨engine, waiting, params⟩ := r.lane.released_of_waiting env.sfc queue free
  have last : (r.lane.released env.sfc).engine.queue.length = 31 := by
    rw [queue, List.length_cons] at full
    rw [engine]
    exact Nat.succ.inj full
  refine ⟨LaneRun.nextTimed env { r with lane := r.lane.released env.sfc } u onset, ?_, ?_⟩
  · have timed := LaneRun.nextTimed_timedAfter env { r with lane := r.lane.released env.sfc } (u := u) onset
    rwa [params, engine] at timed
  · rw [laneStep_of_held env r held free ready]
    exact feed_of_last env { r with lane := r.lane.released env.sfc } (deck ▸ playing) (deck ▸ auto) (deck ▸ units)
      (deck ▸ next) script last (by rw [params, engine]; exact within) waiting

end Freed

/-! ## The completion of a PREPARE with a take recorded (R159, R163) -/

section Completion

theorem State.queueReport_setLane (s : State) (l : LaneId) (x : Lane) (r : Report) :
    (s.setLane l x).queueReport r = (s.queueReport r).setLane l x := by
  unfold State.queueReport
  split
  · next room => rw [if_pos (by exact room)]; rfl
  · next full => rw [if_neg (by exact full)]; rfl

theorem State.queueReports_setLane (s : State) (l : LaneId) (x : Lane) (rs : List Report) :
    (s.setLane l x).queueReports rs = (s.queueReports rs).setLane l x := by
  induction rs generalizing s with
  | nil => rfl
  | cons r rs ih => rw [State.queueReports_cons, State.queueReports_cons, State.queueReport_setLane, ih]

/-- The deck player's reports of a layout (R159). -/
def layoutNotes (env : LaneEnv) (units : List CaptionUnit) (limited : List Nat) : List Report :=
  (limited.map fun i =>
    { kind := .styleLimit, lane := some env.lane, writer := none, value := some i, stamp := env.sfc })
  ++ if 48 < units.length then
      [{ kind := .deckTruncated, lane := some env.lane, writer := none, value := some (units.length - 48)
         stamp := env.sfc }]
    else []

/-- A layout's reports leave the lane alone (R159). -/
theorem layoutReports_eq (env : LaneEnv) (units : List CaptionUnit) (limited : List Nat) (r : LaneRun) :
    layoutReports env units limited r = { r with out := r.out ++ layoutNotes env units limited } := by
  have limits : limited.foldl (fun r i => r.emit env .styleLimit none (some i)) r = { r with out := r.out
      ++ (limited.map fun i =>
        { kind := .styleLimit, lane := some env.lane, writer := none, value := some i, stamp := env.sfc }) } := by
    induction limited generalizing r with
    | nil => simp only [List.foldl_nil, List.map_nil, List.append_nil]
    | cons i is ih =>
      rw [List.foldl_cons, ih, List.map_cons, List.append_cons]
      rfl
  unfold layoutReports layoutNotes
  dsimp only
  rw [limits]
  split
  · next long =>
    rw [if_pos (by exact long), ← List.append_assoc]
    rfl
  · next short => rw [if_neg (by exact short), List.append_nil]

variable (s : State) (l : LaneId) (g : Nat)

/-- The units and the style limits of the segment laid out for a lane (R151, R158). -/
def State.layout : List CaptionUnit × List Nat :=
  layoutScript (s.env l) (s.lane l).params g (s.store.preparedText g)

/-- The lane with the segment laid out in its deck, and no take recorded (R158, R163). -/
def State.laidLane : Lane :=
  { s.lane l with deck := { (s.lane l).deck.laidOut g (s.layout l g).1 with pendingTake := none } }

/-- The units of the deck are of the segment (R158). -/
theorem State.laidLane_script (u : CaptionUnit) (hu : u ∈ (s.laidLane l g).deck.units) : ∃ h, u.origin = .script h :=
  ⟨g, layoutScript_origin (s.env l) (s.lane l).params _ u (List.mem_of_mem_take hu)⟩

/-- STORE_DONE, and the deck player's reports of the layout behind it (R159). -/
def State.prepareNotes : List Report :=
  s.note .storeDone (some l) none (some (storeValue 3 0 g)) :: layoutNotes (s.env l) (s.layout l g).1 (s.layout l g).2

/-- A lane's blocks that act behind a report (R187). -/
theorem State.queueReport_onLane (n : Report) {act : LaneEnv → LaneRun → LaneRun} {ln : Lane} {rs : List Report}
    (run : act (s.env l) { lane := s.lane l, out := [] } = { lane := ln, out := rs }) :
    (s.queueReport n).onLane l act = (s.setLane l ln).queueReports (n :: rs) := by
  have env : (s.queueReport n).env l = s.env l := by simp only [State.env, State.queueReport_time,
    State.queueReport_styles, State.queueReport_styleLimit]
  have lane : (s.queueReport n).lane l = s.lane l := s.queueReports_lane [n] l
  rw [State.onLane, env, lane, run, State.queueReports_cons, State.queueReport_setLane]

/-- The completion of a PREPARE, by what a take recorded makes of the lane and of its own reports (R151, R158, R159). -/
theorem State.completePrepare_eq (engine : s.store.engine = .prepare g l) {ln : Lane} {rs : List Report}
    (run : ∀ out, carryOutPending (s.env l) g
        { lane := { s.lane l with deck := (s.lane l).deck.laidOut g (s.layout l g).1 }, out := out }
      = { lane := ln, out := out ++ rs }) :
    s.completePrepare
      = ((s.withStore { s.store with engine := .idle }).setLane l ln).queueReports (s.prepareNotes l g ++ rs) := by
  have filled : s.onLane l (fillDeck g (s.layout l g).1)
      = s.setLane l { s.lane l with deck := (s.lane l).deck.laidOut g (s.layout l g).1 } := s.onLane_of_quiet l _ rfl
  have steps : s.completePrepare = (((s.withStore { s.store with engine := .idle }).setLane l
        { s.lane l with deck := (s.lane l).deck.laidOut g (s.layout l g).1 }).queueReport
          (s.note .storeDone (some l) none (some (storeValue 3 0 g)))).onLane l
            (afterPrepare g (s.layout l g).1 (s.layout l g).2) := by
    unfold State.completePrepare
    rw [engine]
    exact congrArg (fun t : State => ((t.withStore { s.store with engine := .idle }).report .storeDone (some l) none
      (some (storeValue 3 0 g))).onLane l (afterPrepare g (s.layout l g).1 (s.layout l g).2)) filled
  rw [steps, State.queueReport_onLane _ l _ (ln := ln)
    (rs := layoutNotes (s.env l) (s.layout l g).1 (s.layout l g).2 ++ rs), State.setLane_setLane]
  · rfl
  · rw [afterPrepare, layoutReports_eq, State.lane_setLane_self]
    exact run _

/-- The part with no take recorded on a lane. -/
def State.untaken : State := s.setLane l { s.lane l with deck := { (s.lane l).deck with pendingTake := none } }

/-- The completion with no take recorded only fills the deck and queues its reports (R158, R159). -/
theorem State.completePrepare_untaken (engine : s.store.engine = .prepare g l) : (s.untaken l).completePrepare =
    ((s.withStore { s.store with engine := .idle }).setLane l (s.laidLane l g)).queueReports (s.prepareNotes l g) := by
  have lane : (s.untaken l).lane l = { s.lane l with deck := { (s.lane l).deck with pendingTake := none } } :=
    s.lane_setLane_self l _
  have layout : (s.untaken l).layout l g = s.layout l g := by
    unfold State.layout
    rw [lane]
    rfl
  have notes : (s.untaken l).prepareNotes l g = s.prepareNotes l g := by
    unfold State.prepareNotes
    rw [layout]
    rfl
  rw [State.completePrepare_eq (s.untaken l) l g engine (ln := s.laidLane l g) (rs := []), notes, List.append_nil]
  · exact congrArg (State.queueReports · _) ((s.withStore { s.store with engine := .idle }).setLane_setLane l _ _)
  · intro out
    rw [layout, lane, List.append_nil]
    rfl

variable {s} {l} {g} {s' : State} (engine : s.store.engine = .prepare g l)
  (alone : exec .prepareCompletion (s.untaken l) = .next s')

include engine alone

theorem prepareCompletion_lane : s'.lane l = s.laidLane l g := by
  rw [← Host.Outcome.next.inj alone, s.completePrepare_untaken l g engine, State.queueReports_lane,
    State.lane_setLane_self]

/-- A take recorded is carried out from its own cue frame, behind the reports of the layout (R159, R163). -/
theorem exec_prepareCompletion_of_take {take : PendingTake} (pending : (s.lane l).deck.pendingTake = some take)
    (report : s'.canReport) {ln : Lane} {left : List CaptionUnit}
    (run : ∀ out, carryOutTake (s.env l) g take.frame { lane := s.laidLane l g, out := out }
      = { lane := ln, out := out ++ segmentEnd (s.env l) g left }) :
    exec .prepareCompletion s = .next (s'.playing l ln g left) := by
  have carries (out : List Report) : carryOutPending (s.env l) g
      { lane := { s.lane l with deck := (s.lane l).deck.laidOut g (s.layout l g).1 }, out := out }
        = { lane := ln, out := out ++ segmentEnd (s.env l) g left } := by
    have held : ((s.lane l).deck.laidOut g (s.layout l g).1).pendingTake = some take := pending
    rw [carryOutPending]
    simp only [held]
    exact run out
  have completed := s.completePrepare_untaken l g engine
  have env : s'.env l = s.env l := by
    rw [← Host.Outcome.next.inj alone, completed]
    simp only [State.env, State.queueReports_time, State.queueReports_styles, State.queueReports_styleLimit]
    rfl
  have queued : ((s.withStore { s.store with engine := .idle }).setLane l ln).queueReports (s.prepareNotes l g)
      = s'.setLane l ln := by
    rw [← Host.Outcome.next.inj alone, completed, ← State.queueReports_setLane, State.setLane_setLane]
  refine congrArg Host.Outcome.next ((s.completePrepare_eq l g engine carries).trans ?_)
  rw [State.queueReports_append, queued, State.queueReports_of_room (s'.setLane l ln) _
    ((Nat.add_le_add_left (segmentEnd_length ..) _).trans report), ← State.playing_eq, env]
  rfl

end Completion

/-! ## TAKE, ADVANCE and STEP on a RUNNING lane, and the completion -/

section Acts

/-- The units that move at a take are at reading pace, in the words of Safety (R165, R166). -/
theorem Lane.atReadingPace_pacedUnits (ln : Lane) (rate : Rate) (us : List CaptionUnit) (first : Nat) :
    ln.atReadingPace rate us (pacingOnsets ln.params rate first us)
      ((ln.params.pacedUnits rate ln.engine.nextRef first us).take 32) := by
  refine ⟨by rw [List.length_take, Params.pacedUnits_length], fun i t at_i => ?_⟩
  rw [List.getElem?_take] at at_i
  split at at_i
  · exact ln.params.pacedUnits_getElem? rate us _ first i at_i
  · exact absurd at_i (by simp)

variable {s : State} {l : LaneId} {broadcast : Bool} {mask tag segment a b c : Byte}
  (only : s.onlyAddresses mask l) (running : (s.lane l).state = .running) (room : broadcast = true ∨ s.canAnswer)
  {u : CaptionUnit} {left : List CaptionUnit}

include only running room

/-- The place that a STEP frees in a full queue takes the next unit of an AUTO deck; the rest of what the STEP does is what
it does on a lane without a deck (R125, R166). -/
theorem exec_step_of_full {g onset : Nat} {onsets : List Nat} (report : s.canReport) (held : (s.lane l).held = true)
    (free : (s.lane l).frozen = false) (ready : (s.lane l).display.nextReady = true)
    (full : (s.lane l).engine.queue.length = 32) (playing : (s.lane l).deck.state = .playing g)
    (auto : (s.lane l).deck.pacing = some .auto) (units : (s.lane l).deck.units = u :: left)
    (next : (s.lane l).deck.onsets = onset :: onsets) {h : Nat} (script : u.origin = .script h)
    (within : lateness (s.lane l).engine.record (baseFrame (s.lane l).params onset s.time.sfc)
      ≤ (s.lane l).params.lamMax) :
    ∃ t s', exec (.stepCue broadcast (immediateCue mask tag segment a b c))
          (s.setLane l { s.lane l with deck := bareDeck .empty none }) = .next s'
      ∧ timedAfter (s.lane l).params s.time.rate s.time.sfc (s.lane l).engine.record u onset t
      ∧ exec (.stepCue broadcast (immediateCue mask tag segment a b c)) s
        = .next (s'.playing l (({ s'.lane l with deck := (s.lane l).deck } : Lane).played [t] left) g left) := by
  obtain ⟨t, timed, fed⟩ := laneStep_of_full (s.env l) { lane := s.lane l, out := [] } held free ready full playing auto
    units (by rw [next]; rfl) script within
  have bare : (s.setLane l { s.lane l with deck := bareDeck .empty none }).lane l
      = { s.lane l with deck := bareDeck .empty none } := s.lane_setLane_self l _
  have stepped : exec (.stepCue broadcast (immediateCue mask tag segment a b c))
      (s.setLane l { s.lane l with deck := bareDeck .empty none })
        = .next ((s.cueHeard broadcast).setLane l { (s.lane l).released s.time.sfc with deck := bareDeck .empty none }) := by
    have bareOnly := s.onlyAddresses_setLane l { s.lane l with deck := bareDeck .empty none } rfl only
    rw [exec_cue_of_quiet bareOnly (by rw [bare]; exact running) (by exact room) mem_cueTable_step nofun ⟨nofun, nofun⟩
      (ln := { (s.lane l).released s.time.sfc with deck := bareDeck .empty none }), State.cueHeard_setLane,
      State.setLane_setLane]
    rw [bare]
    refine (laneStep_of_held _ _ held free ready).trans ((feed_of_notPlaying _ _ fun g' => ?_).trans ?_)
    · rw [Lane.released_deck]
      exact nofun
    · rw [Lane.released_withDeck]
      rfl
  refine ⟨t, _, stepped, timed, ?_⟩
  have same : ({ ({ (s.lane l).released s.time.sfc with deck := bareDeck .empty none } : Lane) with
      deck := (s.lane l).deck } : Lane) = (s.lane l).released s.time.sfc := by
    rw [← (s.lane l).released_deck s.time.sfc]
  rw [exec_cue_of_playing only running room mem_cueTable_step nofun ⟨nofun, nofun⟩ fed report, State.lane_setLane_self,
    same]
  unfold State.playing
  rw [State.setLane_setLane]
  rfl

end Acts

/-- Settles O51: the clauses of a cue in their order, then the completion under STEPPED and under AUTO pacing. -/
theorem takeAndAdvance : Obligations.TakeAndAdvance := by
  unfold Obligations.TakeAndAdvance
  refine ⟨fun s l broadcast mask tag segment a b c only running room report low => ⟨fun own quiet ready script =>
    ⟨fun u left stepped units fits => ?_, fun auto frozen range ahead free unrecorded => ?_⟩, fun own preparing free => ?_,
      fun lane1 following => ?_, fun own unready held => ?_, fun g u left playing stepped units script fits => ?_,
      fun other => ?_, fun g onset u left onsets held free ready full playing auto units next script fits => ?_⟩,
    fun s s' l g take engine pending alone report quiet => ⟨fun u left stepped units fits => ?_,
      fun auto frozen range ahead free unrecorded => ?_⟩⟩
  · refine ⟨_, LaneRun.nextTimed_timedAfter (s.env l) { lane := s.lane l, out := [] } s.time.sfc, ?_⟩
    refine exec_cue_of_playing only running room mem_cueTable_take (fun _ => low) ⟨nofun, nofun⟩ ?_ report
    rw [s.follows_of_not l own]
    exact (laneTake_of_ready _ _ _ _ ready).trans (carryOutTake_of_stepped _ _ _ quiet stepped units
      (script u (by rw [units]; exact List.mem_cons_self ..)) fits.1 (s.lateness_of_fits l fits))
  · refine ⟨_, _, pacingOnsets_onsetsOf .., Lane.atReadingPace_pacedUnits .., ?_⟩
    refine exec_cue_of_playing only running room mem_cueTable_take (fun _ => low) ⟨nofun, nofun⟩ ?_ report
    rw [s.follows_of_not l own]
    exact (laneTake_of_ready _ _ _ _ ready).trans (carryOutTake_of_auto _ _ _ quiet auto frozen range
      (Nat.add_le_add_left ahead _) free unrecorded fun u hu => ⟨_, script u hu⟩)
  · refine exec_cue_of_quiet only running room mem_cueTable_take (fun _ => low) ⟨nofun, nofun⟩ ?_
    rw [s.follows_of_not l own]
    exact laneTake_of_preparing _ _ _ _ preparing free
  · subst lane1
    refine exec_cue_of_refused only running room mem_cueTable_take (fun _ => low) ⟨nofun, nofun⟩ ?_ report
    exact if_pos following
  · refine exec_cue_of_refused only running room mem_cueTable_take (fun _ => low) ⟨nofun, nofun⟩ ?_ report
    rw [s.follows_of_not l own]
    exact laneTake_of_other _ _ _ _ unready held
  · refine ⟨_, LaneRun.nextTimed_timedAfter (s.env l) { lane := s.lane l, out := [] } s.time.sfc, ?_⟩
    exact exec_cue_of_playing only running room mem_cueTable_advance nofun ⟨nofun, nofun⟩
      ((laneAdvance_of_stepped _ _ _ playing stepped units).trans
        (timeDeckUnit_eq _ _ _ _ units script fits.1 (s.lateness_of_fits l fits))) report
  · exact exec_cue_of_refused only running room mem_cueTable_advance nofun ⟨nofun, nofun⟩
      (laneAdvance_of_other _ _ _ other) report
  · exact exec_step_of_full only running room report held free ready full playing auto units next script
      (lateness_le_of_behind fits)
  · have lane := prepareCompletion_lane engine alone
    refine ⟨_, LaneRun.nextTimed_timedAfter (s.env l) { lane := s.laidLane l g, out := [] } take.frame, ?_⟩
    rw [lane] at quiet units ⊢
    refine exec_prepareCompletion_of_take engine alone pending report fun out => ?_
    obtain ⟨h, script⟩ := s.laidLane_script l g u (by rw [units]; exact List.mem_cons_self ..)
    exact carryOutTake_of_stepped _ _ _ quiet stepped units script fits.1 (s.lateness_of_fits l fits)
  · have lane := prepareCompletion_lane engine alone
    rw [lane] at quiet ⊢
    refine ⟨_, _, pacingOnsets_onsetsOf .., Lane.atReadingPace_pacedUnits .., ?_⟩
    refine exec_prepareCompletion_of_take engine alone pending report fun out => ?_
    exact carryOutTake_of_auto _ _ _ quiet auto frozen range ahead free unrecorded (s.laidLane_script l g)

end Sys2Proof.Machine
end

section
/-! PROOF. What every act of a lane's blocks keeps of the timeline laws: release frames rise along the waiting units, none
lies above the record, the air image carries the release serial, every unit of the builder holds a word, and a STOPPED lane
is empty (R50, R66, R71, R79, R85, R96, R100, R110, R117, R127). -/

namespace Sys2Proof.Machine

/-! ## Units waiting for release (R79, R85, R127) -/

theorem releasesRise_iff (ts : List TimedUnit) : releasesRise ts ↔ ts.Pairwise fun t u => t.release < u.release := by
  induction ts with
  | nil => simp [releasesRise]
  | cons t ts ih =>
    cases ts with
    | nil => simp [releasesRise]
    | cons u ts =>
      simp only [releasesRise, ih, List.pairwise_cons (a := t)]
      refine ⟨fun ⟨first, rest⟩ => ⟨?_, rest⟩, fun ⟨all, rest⟩ => ⟨all u (by simp), rest⟩⟩
      simp only [List.mem_cons, forall_eq_or_imp]
      exact ⟨first, fun v hv => first.trans ((List.pairwise_cons.mp rest).1 v hv)⟩

/-- The record of a unit that was timed last (R72). -/
def TimedUnit.asLast (t : TimedUnit) : LastTimed := { release := t.release, minimum := t.minimum, ref := t.ref }

/-- Units that wait behind a record as R79 and R85 have them: in rising order of release, each shown for a time, none
released behind the record's unit, and none at all without a record. -/
structure Waits (ts : List TimedUnit) (record : Option LastTimed) : Prop where
  rises : ts.Pairwise fun t u => t.release < u.release
  shown : ∀ t ∈ ts, 0 < t.minimum
  within : ∀ t ∈ ts, ∃ x, record = some x ∧ t.release ≤ x.release

theorem Waits.nil (record : Option LastTimed) : Waits [] record :=
  ⟨.nil, List.forall_mem_nil _, List.forall_mem_nil _⟩

theorem Waits.sublist {ts us : List TimedUnit} {record : Option LastTimed} (h : Waits ts record) (k : us.Sublist ts) :
    Waits us record :=
  ⟨h.rises.sublist k, fun t ht => h.shown t (k.subset ht), fun t ht => h.within t (k.subset ht)⟩

/-- Marks on units do not change when they are released (R80). -/
theorem Waits.map {ts : List TimedUnit} {record : Option LastTimed} (h : Waits ts record) (f : TimedUnit → TimedUnit)
    (release : ∀ t, (f t).release = t.release) (minimum : ∀ t, (f t).minimum = t.minimum) : Waits (ts.map f) record := by
  refine ⟨List.pairwise_map.mpr (by simpa only [release] using h.rises), ?_, ?_⟩ <;> intro t ht <;>
    obtain ⟨u, hu, rfl⟩ := List.mem_map.mp ht
  · rw [minimum]; exact h.shown u hu
  · rw [release]; exact h.within u hu

/-- In a list that rises, no unit lies above the last. -/
theorem Waits.of_concat {ts : List TimedUnit} {t : TimedUnit}
    (rises : (ts ++ [t]).Pairwise fun t u => t.release < u.release) (shown : ∀ u ∈ ts ++ [t], 0 < u.minimum) :
    Waits (ts ++ [t]) (some t.asLast) := by
  refine ⟨rises, shown, fun u hu => ⟨_, rfl, ?_⟩⟩
  obtain hu | hu := List.mem_append.mp hu
  · exact ((List.pairwise_append.mp rises).2.2 u hu t (List.mem_singleton_self t)).le
  · rw [List.mem_singleton.mp hu]; exact le_rfl

/-- A unit released behind the record joins those that wait, and becomes the record (R79, R81). -/
theorem Waits.append {ts : List TimedUnit} {record : Option LastTimed} (h : Waits ts record) (t : TimedUnit)
    (shown : 0 < t.minimum) (above : ∀ x, record = some x → x.release < t.release) :
    Waits (ts ++ [t]) (some t.asLast) := by
  refine .of_concat (List.pairwise_append.mpr ⟨h.rises, List.pairwise_singleton .., fun u hu v hv => ?_⟩) fun u hu => ?_
  · obtain ⟨x, hx, within⟩ := h.within u hu
    rw [List.mem_singleton.mp hv]
    exact within.trans_lt (above x hx)
  · obtain hu | hu := List.mem_append.mp hu
    · exact h.shown u hu
    · rw [List.mem_singleton.mp hu]; exact shown

/-- Raised release frames rise, from the least frame given on (R127). -/
theorem raiseReleases_rises (ts : List TimedUnit) (shown : ∀ t ∈ ts, 0 < t.minimum) (least : Nat) :
    (raiseReleases least ts).Pairwise (fun t u => t.release < u.release)
      ∧ ∀ t ∈ raiseReleases least ts, least ≤ t.release ∧ 0 < t.minimum := by
  induction ts generalizing least with
  | nil => exact ⟨.nil, List.forall_mem_nil _⟩
  | cons t ts ih =>
    obtain ⟨first, rest⟩ := List.forall_mem_cons.mp shown
    obtain ⟨rises, above⟩ := ih rest (max t.release least + t.minimum)
    refine ⟨List.pairwise_cons.mpr ⟨fun u hu => ?_, rises⟩, List.forall_mem_cons.mpr ⟨⟨Nat.le_max_right .., first⟩,
      fun u hu => ?_⟩⟩
    · exact (Nat.lt_add_of_pos_right first).trans_le (above u hu).1
    · exact ⟨(Nat.le_max_right ..).trans <| (Nat.le_add_right ..).trans (above u hu).1, (above u hu).2⟩

/-! ## The laws of one lane -/

/-- The next image is that of the unit that is to come to air (R96). -/
def DisplaySet.nextLawful (d : DisplaySet) : Prop :=
  d.nextReady = true → ∃ t, d.next.unit = some t ∧ d.next.release = some t.release

/-- The laws of a lane's timing engine and display set (R79, R85, R96, R100). -/
structure Lane.Timed (ln : Lane) : Prop where
  waits : Waits ln.walk ln.engine.record
  next : ln.display.nextLawful
  serial : ln.display.serialLawful

/-- The laws that a lane has whether it runs or not. -/
structure Lane.Flowing (ln : Lane) : Prop extends ln.Timed where
  range : ln.params.inRange
  words : ln.builder.unitsHoldWords

/-- The laws of a lane. -/
structure Lane.Lawful (ln : Lane) : Prop extends ln.Flowing where
  stopped : ln.stoppedEmpty

theorem Lane.lawful_iff (ln : Lane) : ln.Lawful ↔
    ln.timelineLawful ∧ ln.display.serialLawful ∧ ln.params.inRange ∧ ln.builder.unitsHoldWords := by
  refine ⟨fun ⟨⟨⟨⟨rises, shown, within⟩, next, serial⟩, range, words⟩, stopped⟩ =>
    ⟨⟨stopped, (releasesRise_iff _).mpr rises, shown, ?_, next⟩, serial, range, words⟩,
    fun ⟨⟨stopped, rises, shown, within, next⟩, serial, range, words⟩ =>
      ⟨⟨⟨⟨(releasesRise_iff _).mp rises, shown, fun t ht => ?_⟩, next, serial⟩, range, words⟩, stopped⟩⟩
  · split
    · next none => exact List.eq_nil_iff_forall_not_mem.mpr fun t ht => by simpa [none] using within t ht
    · next x some => exact fun t ht => by simpa [some] using within t ht
  · split at within
    · rw [within] at ht; exact absurd ht List.not_mem_nil
    · next x some => exact ⟨x, some, within t ht⟩

/-- An act keeps the laws that a lane has whether it runs or not, and leaves it running or stopped. -/
structure Lane.Flows (a b : Lane) : Prop where
  state : b.state = a.state
  law : a.Flowing → b.Flowing

theorem Lane.Flows.refl (a : Lane) : a.Flows a := ⟨rfl, id⟩

theorem Lane.Flows.trans {a b c : Lane} (h : a.Flows b) (k : b.Flows c) : a.Flows c :=
  ⟨k.state.trans h.state, k.law ∘ h.law⟩

theorem foldl_flows {α : Type} (f : LaneRun → α → LaneRun) (flows : ∀ (r : LaneRun) (a : α), r.lane.Flows (f r a).lane)
    (as : List α) (r : LaneRun) : r.lane.Flows (as.foldl f r).lane :=
  foldl_related (R := fun r q => r.lane.Flows q.lane) (fun r => .refl r.lane) .trans f flows as r

/-- An act that changes none of the items that these laws speak of. -/
theorem Lane.Flows.of_same {a b : Lane} (state : b.state = a.state) (engine : b.engine = a.engine)
    (display : b.display = a.display) (params : b.params = a.params) (builder : b.builder = a.builder) : a.Flows b := by
  refine ⟨state, fun ⟨⟨waits, next, serial⟩, range, words⟩ => ⟨⟨?_, ?_, ?_⟩, ?_, ?_⟩⟩
  · rw [Lane.walk, engine, display]; exact waits
  · rw [display]; exact next
  · rw [display]; exact serial
  · rw [params]; exact range
  · rw [builder]; exact words

/-- An act that only times keeps these laws where it keeps those of the engine and the display set. -/
theorem LaneRun.onlyTimes.flows {r q : LaneRun} (h : r.onlyTimes q) (timed : r.lane.params.inRange → r.lane.Timed → q.lane.Timed) :
    r.lane.Flows q.lane := by
  obtain ⟨⟨state, -, -, params, opened, provisional, -⟩, -⟩ := h
  refine ⟨state, fun ⟨law, range, words⟩ => ⟨timed range law, params ▸ range, ?_⟩⟩
  rw [Builder.unitsHoldWords, opened, provisional]; exact words

/-- A change of the builder alone. -/
theorem Lane.flows_withBuilder (ln : Lane) (b : Builder) (words : ln.builder.unitsHoldWords → b.unitsHoldWords) :
    ln.Flows { ln with builder := b } :=
  ⟨rfl, fun ⟨⟨waits, next, serial⟩, range, held⟩ => ⟨⟨waits, next, serial⟩, range, words held⟩⟩

/-- A change of the display set that leaves the next image and keeps the serial's law. -/
theorem Lane.flows_withDisplay (ln : Lane) (d : DisplaySet) (next : d.next = ln.display.next)
    (ready : d.nextReady = ln.display.nextReady) (serial : ln.display.serialLawful → d.serialLawful) :
    ln.Flows { ln with display := d } := by
  have nextUnit : d.nextUnit = ln.display.nextUnit := by rw [DisplaySet.nextUnit, next, ready, DisplaySet.nextUnit]
  refine ⟨rfl, fun ⟨⟨waits, law, held⟩, range, words⟩ => ⟨⟨?_, ?_, serial held⟩, range, words⟩⟩
  · rw [Lane.walk, nextUnit]; exact waits
  · rw [DisplaySet.nextLawful, ready, next]; exact law

/-! ## Timing -/

/-- A change of the air image keeps the law of the serial (R100). -/
theorem DisplaySet.changeAir_serialLawful (d : DisplaySet) (air : Image) : (d.changeAir air).serialLawful :=
  ⟨Nat.mod_lt _ (by decide), rfl⟩

section Timing

variable (env : LaneEnv) (r : LaneRun)

/-- Composition leaves the waiting units as they are: the head of the queue waits in the next buffer then (R96). -/
theorem compose_walk : (compose r).lane.walk = r.lane.walk := by
  obtain ⟨same, -⟩ | ⟨t, rest, queue, ready, -, taken⟩ := compose_cases r
  · rw [same]
  · simp [taken, Lane.walk, DisplaySet.nextUnit, composedImage, queue, ready]

theorem compose_timed (h : r.lane.Timed) : (compose r).lane.Timed := by
  have walk := compose_walk r
  obtain ⟨same, -⟩ | ⟨t, rest, -, -, -, taken⟩ := compose_cases r
  · rwa [same]
  · rw [taken] at walk ⊢
    exact ⟨walk ▸ h.waits, fun _ => ⟨t, rfl, rfl⟩, h.serial⟩

/-- The CUT mark on a unit, where it is the one named. -/
def TimedUnit.cutWhereNamed (ref : Nat) (t : TimedUnit) : TimedUnit := if t.named ref then t.marked else t

theorem TimedUnit.cutWhereNamed_release (ref : Nat) (t : TimedUnit) : (t.cutWhereNamed ref).release = t.release := by
  unfold TimedUnit.cutWhereNamed; split <;> rfl

theorem TimedUnit.cutWhereNamed_minimum (ref : Nat) (t : TimedUnit) : (t.cutWhereNamed ref).minimum = t.minimum := by
  unfold TimedUnit.cutWhereNamed; split <;> rfl

/-- The next image after a CUT mark: marked where it is ready and holds the unit named (R102). -/
theorem Lane.markCut_next (ln : Lane) (ref : Nat) : (ln.markCut ref).display.nextReady = ln.display.nextReady
    ∧ (ln.markCut ref).display.next
      = if ln.display.nextReady = true ∧ ln.display.next.holds ref then ln.display.next.marked else ln.display.next := by
  unfold Lane.markCut
  dsimp only
  split <;> split <;> exact ⟨rfl, rfl⟩

/-- The CUT mark changes no place along the waiting units (R80, R102). -/
theorem Lane.markCut_walk (ln : Lane) (ref : Nat) : (ln.markCut ref).walk = ln.walk.map (TimedUnit.cutWhereNamed ref) := by
  obtain ⟨ready, next⟩ := ln.markCut_next ref
  have nextUnit : (ln.markCut ref).display.nextUnit = ln.display.nextUnit.map (TimedUnit.cutWhereNamed ref) := by
    unfold DisplaySet.nextUnit
    rw [ready, next]
    unfold Image.holds
    cases ln.display.nextReady <;> cases unit : ln.display.next.unit with
    | none => simp [unit]
    | some t => cases named : t.named ref <;> simp [unit, named, Image.marked, TimedUnit.cutWhereNamed]
  have queue : (ln.markCut ref).engine.queue = ln.engine.queue.map (TimedUnit.cutWhereNamed ref) := rfl
  rw [Lane.walk, nextUnit, queue, Lane.walk, List.map_append]
  cases ln.display.nextUnit <;> rfl

theorem Lane.markCut_timed (ln : Lane) (ref : Nat) (h : ln.Timed) : (ln.markCut ref).Timed := by
  obtain ⟨ready, next⟩ := ln.markCut_next ref
  refine ⟨?_, fun isReady => ?_, ?_⟩
  · rw [ln.markCut_walk ref]
    exact h.waits.map _ (TimedUnit.cutWhereNamed_release ref) (TimedUnit.cutWhereNamed_minimum ref)
  · obtain ⟨t, unit, release⟩ := h.next (ready ▸ isReady)
    rw [next]
    split
    · exact ⟨t.marked, by rw [Image.marked, unit]; rfl, release⟩
    · exact ⟨t, unit, release⟩
  · have marked (d : DisplaySet) (law : d.serialLawful) :
        (if d.air.holds ref then d.changeAir d.air.marked else d).serialLawful := by
      split
      · exact d.changeAir_serialLawful _
      · exact law
    refine marked (if ln.display.nextReady ∧ ln.display.next.holds ref then
      { ln.display with next := ln.display.next.marked } else ln.display) ?_
    split
    · exact h.serial
    · exact h.serial

theorem cutNamed_timed (ref value : Nat) (h : r.lane.Timed) : (cutNamed env ref value r).lane.Timed := by
  unfold cutNamed
  split
  · exact h
  · split
    · exact h
    · obtain ⟨waits, next, serial⟩ := r.lane.markCut_timed ref h
      exact ⟨waits, next, serial⟩

theorem cutIfLate_timed (t : TimedUnit) (h : r.lane.Timed) : (cutIfLate env t r).lane.Timed := by
  unfold cutIfLate
  split
  · exact h
  · split
    · exact cutNamed_timed env r _ _ h
    · exact h

/-- A cut leaves the record (R80). -/
theorem cutIfLate_record (t : TimedUnit) : (cutIfLate env t r).lane.engine.record = r.lane.engine.record := by
  unfold cutIfLate cutNamed
  split
  · rfl
  · split
    · split
      · rfl
      · split <;> rfl
    · rfl

/-- Discarding the head of the queue takes one waiting unit away, and changes neither the record nor the display set (R82). -/
theorem discardHead_leaves (now : Nat) : (discardHead env now r).lane.walk.Sublist r.lane.walk
    ∧ (discardHead env now r).lane.engine.record = r.lane.engine.record
    ∧ (discardHead env now r).lane.display = r.lane.display := by
  unfold discardHead
  split
  · exact ⟨.refl _, rfl, rfl⟩
  · next t rest queue => exact ⟨by simp [Lane.walk, queue], rfl, rfl⟩

/-- A unit that is shown for a time and released behind the record joins the waiting units (R79, R81, R82). -/
theorem appendTimed_timed (now : Nat) (t : TimedUnit) (shown : 0 < t.minimum)
    (above : ∀ x, r.lane.engine.record = some x → x.release < t.release) (h : r.lane.Timed) :
    (appendTimed env now t r).lane.Timed := by
  unfold appendTimed
  dsimp only
  generalize recorded : r.edit (fun ln => { ln with engine := { ln.engine with
    record := some { release := t.release, minimum := t.minimum, ref := t.ref }
    level := t.level, nextRef := t.ref + 1 } }) = q
  have joins (p : LaneRun) (walk : p.lane.walk.Sublist q.lane.walk) (record : p.lane.engine.record = q.lane.engine.record)
      (display : p.lane.display = q.lane.display) :
      (p.edit fun ln => { ln with engine := { ln.engine with queue := ln.engine.queue ++ [t] } }).lane.Timed := by
    subst recorded
    have shows : p.lane.display = r.lane.display := display
    refine ⟨?_, ?_, ?_⟩
    · have waits := (h.waits.sublist walk).append t shown above
      rw [Lane.walk, List.append_assoc] at waits
      exact record ▸ waits
    · exact shows ▸ h.next
    · exact shows ▸ h.serial
  split
  · obtain ⟨walk, record, display⟩ := discardHead_leaves env q now
    exact joins _ walk record display
  · exact joins q (.refl _) rfl rfl

theorem joinScriptWords_timed (u : CaptionUnit) (h : r.lane.Timed) : (joinScriptWords u r).lane.Timed := by
  unfold joinScriptWords
  split
  · exact h
  · exact ⟨h.waits, h.next, h.serial⟩

/-- A unit is shown for at least Hfloor, which is not 0 (R78, R89). -/
theorem timedUnit_shown {p : Params} (range : p.inRange) (rate : Rate) (e : Engine) (now : Nat) (u : CaptionUnit) :
    0 < (timedUnit p rate e now u).minimum := by
  obtain ⟨-, -, -, -, -, -, -, -, -, floor, -⟩ := range
  exact (Nat.lt_of_lt_of_le (by decide) floor).trans_le (hFloor_le_effectiveMinimum ..)

/-- A unit is released behind the unit timed before it (R79). -/
theorem timedUnit_above (p : Params) (rate : Rate) (e : Engine) (now : Nat) (u : CaptionUnit) (x : LastTimed)
    (record : e.record = some x) : x.release < (timedUnit p rate e now u).release := by
  rw [timedUnit, record]
  exact releaseFrame_above ..

theorem timeUnit_flows (now : Nat) (u : CaptionUnit) : r.lane.Flows (timeUnit env now u r).lane := by
  refine (timeUnit_onlyTimes env now u r).flows fun range h => ?_
  unfold timeUnit
  refine compose_timed _ (joinScriptWords_timed _ u (appendTimed_timed env _ now _ (timedUnit_shown range ..)
    (fun x record => timedUnit_above _ _ _ _ _ x ?_) (cutIfLate_timed env r _ h)))
  rwa [cutIfLate_record] at record

/-- Provisional units that leave the list (R62 to R64). -/
theorem LaneRun.fewerProvisional_flows (ps : List Provisional) (fewer : ps.Sublist r.lane.builder.provisional) :
    r.lane.Flows (r.editBuilder fun b => { b with provisional := ps }).lane :=
  r.lane.flows_withBuilder _ fun ⟨opened, closed⟩ => ⟨opened, fun q hq => closed q (fewer.subset hq)⟩

theorem timeDue_flows : r.lane.Flows (timeDue env r).lane :=
  (r.fewerProvisional_flows _ (List.dropWhile_sublist _)).trans (foldl_flows _ (fun r _ => timeUnit_flows env r _ _) _ _)

theorem timeAll_flows : r.lane.Flows (timeAll env r).lane :=
  (r.fewerProvisional_flows _ (List.nil_sublist _)).trans (foldl_flows _ (fun r _ => timeUnit_flows env r _ _) _ _)

theorem forceHead_flows : r.lane.Flows (forceHead env r).lane := by
  unfold forceHead
  split
  · exact .refl _
  · next p rest list =>
    exact (r.fewerProvisional_flows rest (list ▸ List.sublist_cons_self ..)).trans (timeUnit_flows ..)

/-- A closed unit holds the words that it held open (R50, R57a). -/
theorem closeOpen_flows (cause : CloseCause) : r.lane.Flows (closeOpen env cause r).lane := by
  unfold closeOpen
  split
  · exact .refl _
  · next u opened =>
    dsimp only
    have taken : r.lane.Flows (r.editBuilder fun b => { b with openUnit := none, flush := none }).lane :=
      r.lane.flows_withBuilder _ fun ⟨_, closed⟩ => ⟨fun v none => absurd none.symm (Option.some_ne_none v), closed⟩
    generalize emptied : r.editBuilder (fun b => { b with openUnit := none, flush := none }) = q at taken ⊢
    have joins (p : LaneRun) (flows : r.lane.Flows p.lane) : r.lane.Flows (p.editBuilder fun b => { b with
        provisional := b.provisional ++ [{ unit := { u with closeFrame := some env.sfc, closeCause := some cause }
                                           windowEnd := env.sfc + r.lane.params.correction }] }).lane := by
      refine ⟨flows.state, fun h => ?_⟩
      obtain ⟨timed, range, opened', closed⟩ := flows.law h
      refine ⟨⟨timed.waits, timed.next, timed.serial⟩, range, opened', fun x hx => ?_⟩
      obtain hx | hx := List.mem_append.mp hx
      · exact closed x hx
      · rw [List.mem_singleton.mp hx]
        exact h.words.1 u opened
    refine .trans ?_ (timeDue_flows env _)
    split
    · exact joins _ (taken.trans (forceHead_flows ..))
    · exact joins _ taken

end Timing

/-! ## The builder -/

section Building

variable (env : LaneEnv) (r : LaneRun)

/-- A unit with a word in it becomes the open unit (R50). -/
theorem Lane.flows_opening (ln : Lane) (b : Builder) {u : CaptionUnit} (words : u.words ≠ [])
    (opened : b.openUnit = some u) (provisional : b.provisional = ln.builder.provisional) :
    ln.Flows { ln with builder := b } :=
  ln.flows_withBuilder b fun ⟨_, closed⟩ =>
    ⟨fun v some => by rw [opened] at some; exact Option.some.inj some ▸ words, provisional ▸ closed⟩

theorem layWord_flows (w : CapWord) (arrival : Nat) (writer : WriterId) (lag : Nat) :
    r.lane.Flows (layWord env w arrival writer lag r).lane := by
  have placed (q : LaneRun) : q.lane.Flows (wordPlaced env w q).lane := q.lane.flows_withBuilder _ id
  have created (q : LaneRun) : q.lane.Flows (createUnit env w arrival writer lag q).lane :=
    q.lane.flows_opening _ (List.cons_ne_nil w []) rfl rfl
  refine .trans ?_ (placed _)
  split
  · exact created r
  · split
    · exact r.lane.flows_opening _ (List.append_ne_nil_of_right_ne_nil _ (List.cons_ne_nil w [])) rfl rfl
    · exact (closeOpen_flows env r .full).trans (created _)

theorem speakerChange_flows (writer : WriterId) (index : Byte) :
    r.lane.Flows (speakerChange env writer index r).lane := by
  refine (closeOpen_flows env r .speaker).trans ?_
  unfold speakerChange
  dsimp only
  split <;> exact Lane.flows_withBuilder _ _ id

theorem flushExpiry_flows : r.lane.Flows (flushExpiry env r).lane := by
  unfold flushExpiry
  split
  · exact (closeOpen_flows env r .flush).trans (Lane.flows_withBuilder _ _ id)
  · exact .refl _

/-- A unit that has lost its last word and still stands holds one (R66). -/
theorem CaptionUnit.shortened_words {u v : CaptionUnit} {p : Params} (h : u.shortened p = some v) : v.words ≠ [] := by
  unfold CaptionUnit.shortened at h
  split at h
  · cases h
  · obtain rfl := Option.some.inj h; exact List.cons_ne_nil _ _

/-- A deletion leaves no unit without a word (R66). -/
theorem deleteOne_unitsHoldWords {p : Params} {b c : Builder} (h : deleteOne p b = some c) (words : b.unitsHoldWords) :
    c.unitsHoldWords := by
  obtain ⟨opened, closed⟩ := words
  have kept : ∀ q ∈ b.provisional.dropLast, q.unit.words ≠ [] := fun q hq => closed q (List.dropLast_subset _ hq)
  unfold deleteOne at h
  split at h
  · split at h
    · next v shorter =>
      obtain rfl := Option.some.inj h
      exact ⟨fun x hx => Option.some.inj hx ▸ CaptionUnit.shortened_words shorter, closed⟩
    · obtain rfl := Option.some.inj h
      exact ⟨fun x none => absurd none.symm (Option.some_ne_none x), closed⟩
  · split at h
    · cases h
    · split at h
      · next q _ v shorter =>
        obtain rfl := Option.some.inj h
        refine ⟨opened, fun x hx => ?_⟩
        obtain hx | hx := List.mem_append.mp hx
        · exact kept x hx
        · rw [List.mem_singleton.mp hx]
          exact CaptionUnit.shortened_words shorter
      · obtain rfl := Option.some.inj h
        exact ⟨opened, kept⟩

theorem deleteWords_unitsHoldWords (p : Params) (n : Nat) (b : Builder) (words : b.unitsHoldWords) :
    (deleteWords p n b).1.unitsHoldWords := by
  induction n generalizing b with
  | zero => exact words
  | succ n ih =>
    unfold deleteWords
    split
    · exact words
    · next c one => exact ih c (deleteOne_unitsHoldWords one words)

theorem laneDelete_flows (writer : WriterId) (n : Nat) : r.lane.Flows (laneDelete env writer n r).lane := by
  have deleted := r.lane.flows_withBuilder (deleteWords r.lane.params n r.lane.builder).1
    (deleteWords_unitsHoldWords _ n _)
  unfold laneDelete
  dsimp only
  split
  · exact deleted
  · exact deleted.trans (.of_same rfl rfl rfl rfl rfl)

end Building

/-! ## The deck player -/

section Playing

variable (env : LaneEnv) (r : LaneRun)

theorem exhaust_flows (segment : Nat) : r.lane.Flows (exhaust env segment r).lane := by
  unfold exhaust
  split
  · exact .of_same rfl rfl rfl rfl rfl
  · exact .refl _

theorem timeDeckUnit_flows (segment : Nat) (u : CaptionUnit) (onset : Nat) :
    r.lane.Flows (timeDeckUnit env segment u onset r).lane :=
  .trans (b := (r.editDeck _).lane) (.of_same rfl rfl rfl rfl rfl) <| (timeUnit_flows ..).trans (exhaust_flows ..)

theorem feedUpTo_flows (n : Nat) : r.lane.Flows (feedUpTo env n r).lane := by
  induction n generalizing r with
  | zero => exact .refl _
  | succ n ih =>
    unfold feedUpTo
    split
    · split
      · exact (timeDeckUnit_flows ..).trans (ih _)
      · exact .refl _
    · exact .refl _

theorem feed_flows : r.lane.Flows (feed env r).lane := feedUpTo_flows ..

theorem composeAndFeed_flows : r.lane.Flows (composeAndFeed env r).lane :=
  .trans ((compose_onlyTimes r).flows fun _ => compose_timed r) (feed_flows ..)

theorem carryOutTake_flows (segment cueFrame : Nat) : r.lane.Flows (carryOutTake env segment cueFrame r).lane := by
  refine (closeOpen_flows env r .take).trans <| (timeAll_flows env _).trans ?_
  unfold carryOutTake
  dsimp only
  split
  · exact .trans (b := LaneRun.lane (.edit _ _)) (.of_same rfl rfl rfl rfl rfl) (exhaust_flows ..)
  · exact .trans (b := LaneRun.lane (.edit _ _)) (.of_same rfl rfl rfl rfl rfl) (timeDeckUnit_flows ..)
  · exact .trans (b := LaneRun.lane (.edit _ _)) (.of_same rfl rfl rfl rfl rfl) (feed_flows ..)

theorem laneTake_flows (following : Bool) (segment tag : Nat) :
    r.lane.Flows (laneTake following segment tag env r).lane := by
  unfold laneTake
  split
  · exact .refl _
  · split
    · split
      · exact carryOutTake_flows ..
      · exact .refl _
    · split
      · exact .of_same rfl rfl rfl rfl rfl
      · exact .refl _
    · exact .refl _

theorem laneAdvance_flows (tag : Nat) : r.lane.Flows (laneAdvance tag env r).lane := by
  unfold laneAdvance
  split
  · exact timeDeckUnit_flows ..
  · exact .refl _

theorem dropTake_flows : r.lane.Flows (dropTake env r).lane := by
  unfold dropTake
  split
  · exact .refl _
  · exact .of_same rfl rfl rfl rfl rfl

theorem endPlaying_flows : r.lane.Flows (endPlaying r).lane := by
  unfold endPlaying
  split
  · exact .of_same rfl rfl rfl rfl rfl
  · exact .refl _

theorem laneEnd_flows (tag : Nat) : r.lane.Flows (laneEnd tag env r).lane := by
  unfold laneEnd
  split
  · exact endPlaying_flows r
  · exact dropTake_flows ..
  · exact .refl _

theorem invalidateDeck_flows : r.lane.Flows (invalidateDeck env r).lane := by
  unfold invalidateDeck
  split
  · exact .of_same rfl rfl rfl rfl rfl
  · exact .refl _

theorem afterPrepare_flows (segment : Nat) (units : List CaptionUnit) (limited : List Nat) :
    r.lane.Flows (afterPrepare segment units limited env r).lane := by
  have reported : r.lane = (layoutReports env units limited r).lane := by rw [layoutReports_eq]
  rw [afterPrepare, reported]
  unfold carryOutPending
  split
  · exact .refl _
  · exact .trans (b := LaneRun.lane (.editDeck _ _)) (.of_same rfl rfl rfl rfl rfl) (carryOutTake_flows ..)

end Playing

/-! ## Lane control -/

section Control

variable (env : LaneEnv) (r : LaneRun)

/-- The record after the walk is the last survivor's, where there is one (R86, R127). -/
theorem Lane.walked_record (ln : Lane) (now : Nat) : (ln.walked now).engine.record
    = ((ln.survivors now).getLast?.map TimedUnit.asLast).or ln.engine.record := by
  rw [survivors_eq]
  unfold Lane.walked
  dsimp only
  split
  · cases List.getLast? _ <;> rfl
  · split <;> cases List.getLast? _ <;> rfl

/-- The survivors wait after the walk, the first in the next buffer where its unit was there before (R108, R127). -/
theorem Lane.walked_walk (ln : Lane) (now : Nat) (next : ln.display.nextLawful) :
    (ln.walked now).walk = ln.survivors now ∧ (ln.walked now).display.nextLawful := by
  rw [survivors_eq]
  unfold Lane.walked
  dsimp only
  cases ready : ln.display.nextReady with
  | false => simp [DisplaySet.nextUnit, ready, Lane.walk, DisplaySet.nextLawful]
  | true =>
    obtain ⟨t, unit, -⟩ := next ready
    cases stale : staleAt ln.params now t <;>
      simp [DisplaySet.nextUnit, ready, unit, stale, Lane.walk, DisplaySet.nextLawful, raiseReleases]

/-- The survivors rise behind the record that the walk takes from them (R86, R127). -/
theorem Lane.survivors_waits (ln : Lane) (now : Nat) (h : Waits ln.walk ln.engine.record) :
    Waits (ln.survivors now) (ln.walked now).engine.record := by
  rw [ln.walked_record now, survivors_eq]
  have kept := h.sublist (List.filter_sublist (p := fun t => !staleAt ln.params now t))
  obtain ⟨rises, least⟩ := raiseReleases_rises _ kept.shown now
  generalize raiseReleases now (ln.walk.filter fun t => !staleAt ln.params now t) = ts at rises least
  rcases List.eq_nil_or_concat' ts with rfl | ⟨us, u, rfl⟩
  · exact .nil _
  · rw [List.getLast?_concat]
    exact .of_concat rises fun t ht => (least t ht).2

theorem Lane.walked_timed (ln : Lane) (now : Nat) (h : ln.Timed) : (ln.walked now).Timed := by
  obtain ⟨walk, next⟩ := ln.walked_walk now h.next
  refine ⟨walk ▸ ln.survivors_waits now h.waits, next, ?_⟩
  have serial := h.serial
  unfold Lane.walked
  dsimp only
  split
  · exact serial
  · split <;> exact serial

theorem retime_flows : r.lane.Flows (retime env r).lane := by
  have walked : r.lane.Flows (r.edit (Lane.walked · env.sfc)).lane :=
    (r.onlyTimes_edit (Lane.walked · env.sfc) (r.lane.walked_sameSettings _)).flows fun _ => r.lane.walked_timed _
  unfold retime
  dsimp only
  refine walked.trans <| .trans ?_ (composeAndFeed_flows ..)
  split
  · exact .refl _
  · exact .of_same rfl rfl rfl rfl rfl

/-- A release takes the head of the waiting units to air (R99, R100). -/
theorem releaseNext_flows : r.lane.Flows (releaseNext env r).lane :=
  ⟨rfl, fun ⟨⟨waits, _, _⟩, range, words⟩ => ⟨⟨waits.sublist (List.sublist_append_right ..), nofun,
    DisplaySet.changeAir_serialLawful ..⟩, range, words⟩⟩

theorem laneThaw_flows : r.lane.Flows (laneThaw env r).lane := by
  unfold laneThaw
  split
  · dsimp only
    refine .trans (b := (r.edit fun ln => { ln with frozen := false }).lane) (.of_same rfl rfl rfl rfl rfl) ?_
    split
    · exact composeAndFeed_flows ..
    · exact retime_flows ..
  · exact .refl _

theorem laneResume_flows : r.lane.Flows (laneResume env r).lane := by
  unfold laneResume
  split
  · dsimp only
    refine .trans (b := (r.edit fun ln => { ln with held := false }).lane) (.of_same rfl rfl rfl rfl rfl) ?_
    split
    · exact .refl _
    · exact retime_flows ..
  · exact .refl _

theorem laneStep_flows : r.lane.Flows (laneStep env r).lane := by
  unfold laneStep
  split
  · exact (releaseNext_flows env r).trans (composeAndFeed_flows ..)
  · exact .refl _

theorem DisplaySet.cleared_serialLawful (d : DisplaySet) (h : d.serialLawful) : d.cleared.serialLawful := by
  unfold DisplaySet.cleared
  split
  · exact h
  · exact d.changeAir_serialLawful _

/-- The laws of a lane whose builder, engine and next buffer hold nothing (R68, R85, R109). -/
theorem Lane.Flowing.of_empty {ln : Lane} (opened : ln.builder.openUnit = none) (provisional : ln.builder.provisional = [])
    (queue : ln.engine.queue = []) (ready : ln.display.nextReady = false) (serial : ln.display.serialLawful)
    (range : ln.params.inRange) : ln.Flowing := by
  refine ⟨⟨?_, fun is => absurd (ready.symm.trans is) Bool.false_ne_true, serial⟩, range, fun u some => ?_, ?_⟩
  · simp only [Lane.walk, DisplaySet.nextUnit, ready, queue]
    exact .nil _
  · rw [opened] at some; cases some
  · rw [provisional]; exact List.forall_mem_nil _

theorem DisplaySet.cleared_nextReady (d : DisplaySet) : d.cleared.nextReady = false := by
  unfold DisplaySet.cleared; split <;> rfl

theorem Lane.swept_flows (ln : Lane) (keepStyle : Bool) : ln.Flows (ln.swept keepStyle) :=
  ⟨rfl, fun h => .of_empty rfl rfl rfl ln.display.cleared_nextReady (ln.display.cleared_serialLawful h.serial) h.range⟩

theorem laneClear_flows (keepStyle : Bool) : r.lane.Flows (laneClear keepStyle env r).lane :=
  .trans (b := (r.edit (Lane.swept · keepStyle)).lane) (Lane.swept_flows ..) <| (endPlaying_flows _).trans <|
    .trans (b := LaneRun.lane (.edit _ _)) (.of_same rfl rfl rfl rfl rfl) (dropTake_flows ..)

theorem laneCue_flows (following : Bool) (c : Cue) : r.lane.Flows (laneCue following c env r).lane := by
  unfold laneCue
  cases c.kind with
  | freeze => exact .of_same rfl rfl rfl rfl rfl
  | thaw => exact laneThaw_flows ..
  | hold => exact .of_same rfl rfl rfl rfl rfl
  | step => exact laneStep_flows ..
  | resume => exact laneResume_flows ..
  | clear => exact laneClear_flows ..
  | take => exact laneTake_flows ..
  | advance => exact laneAdvance_flows ..
  | finish => exact laneEnd_flows ..
  | split => exact .refl _
  | join => exact .refl _

end Control

/-! ## Writers and inserters -/

section Intake

variable (env : LaneEnv) (r : LaneRun)

theorem applyMarks_flows (w : WriterId) (m : Marks) : r.lane.Flows (applyMarks env w m r).lane := by
  unfold applyMarks
  dsimp only
  have broken : r.lane.Flows (if m.brk = true then closeOpen env .brk r else r).lane := by
    split
    · exact closeOpen_flows ..
    · exact .refl _
  cases m.speaker with
  | none => exact broken
  | some i => exact broken.trans (speakerChange_flows ..)

theorem replay_flows (w : WriterId) (lag : Nat) (es : List Staged) (m : Marks) :
    r.lane.Flows (replay w lag es m env r).lane :=
  (foldl_flows _ (fun r _ => (applyMarks_flows env r ..).trans (layWord_flows ..)) es r).trans (applyMarks_flows ..)

theorem discardAndReplay_flows (suppressed : Bool) (v : WriterId) (w : Writer) (k : Nat) :
    r.lane.Flows (discardAndReplay suppressed v w k env r).lane := by
  unfold discardAndReplay
  dsimp only
  refine .trans (b := (r.edit fun ln => { ln with
    counters := { ln.counters with overlap := saturate (ln.counters.overlap + k) } }).lane) (.of_same rfl rfl rfl rfl rfl) ?_
  split
  · exact .of_same rfl rfl rfl rfl rfl
  · exact replay_flows ..

/-- The air image is blanked, and the older rows of a ready next image with it (R101). -/
theorem blankAir_flows : r.lane.Flows (blankAir r).lane := by
  refine ⟨rfl, fun ⟨⟨waits, next, serial⟩, range, words⟩ => ?_⟩
  unfold blankAir
  simp only [LaneRun.edit_lane]
  split
  · exact ⟨⟨waits, next, DisplaySet.changeAir_serialLawful ..⟩, range, words⟩
  · exact ⟨⟨waits, next, DisplaySet.changeAir_serialLawful ..⟩, range, words⟩

theorem serveImage_flows : r.lane.Flows (serveImage env r).lane := by
  unfold serveImage
  split
  · exact (releaseNext_flows env r).trans (composeAndFeed_flows ..)
  · split
    · exact blankAir_flows r
    · exact .refl _

end Intake

/-! ## A lane that stands idle (R117) -/

/-- A lane that holds no unit and plays no deck, and on which no take waits, as a STOPPED lane is (R117). -/
structure Lane.Bare (ln : Lane) : Prop where
  opened : ln.builder.openUnit = none
  provisional : ln.builder.provisional = []
  flush : ln.builder.flush = none
  queue : ln.engine.queue = []
  ready : ln.display.nextReady = false
  take : ln.deck.pendingTake = none
  playing : ∀ g, ln.deck.state ≠ .playing g
  source : ln.source = .live

theorem Lane.stoppedEmpty_iff (ln : Lane) : ln.stoppedEmpty ↔ (ln.state = .stopped → ln.Bare) :=
  ⟨fun h stopped => have ⟨opened, provisional, flush, queue, ready, take, playing, source⟩ := h stopped
    ⟨opened, provisional, flush, queue, ready, take, playing, source⟩,
    fun h stopped => have ⟨opened, provisional, flush, queue, ready, take, playing, source⟩ := h stopped
      ⟨opened, provisional, flush, queue, ready, take, playing, source⟩⟩

/-- An act that keeps every law of a lane, running or stopped. -/
structure Lane.Stays (a b : Lane) : Prop extends a.Flows b where
  idle : a.Bare → b.Bare

theorem Lane.Stays.refl (a : Lane) : a.Stays a := ⟨.refl a, id⟩

theorem Lane.Stays.trans {a b c : Lane} (h : a.Stays b) (k : b.Stays c) : a.Stays c :=
  ⟨h.toFlows.trans k.toFlows, k.idle ∘ h.idle⟩

theorem Lane.Stays.lawful {a b : Lane} (h : a.Stays b) (k : a.Lawful) : b.Lawful :=
  ⟨h.law k.toFlowing, b.stoppedEmpty_iff.mpr fun stopped =>
    h.idle (a.stoppedEmpty_iff.mp k.stopped (h.state.symm.trans stopped))⟩

/-- On a lane that runs, only the laws that do not ask for an idle lane matter. -/
theorem Lane.Flows.lawful {a b : Lane} (h : a.Flows b) (running : a.state = .running) (k : a.Lawful) : b.Lawful :=
  ⟨h.law k.toFlowing, b.stoppedEmpty_iff.mpr fun stopped => by rw [h.state, running] at stopped; cases stopped⟩

/-- A lane's deck and source changed, and the deck not set playing nor a take recorded. -/
theorem Lane.stays_withDeck (ln : Lane) (d : Deck) (x : Source)
    (take : ln.deck.pendingTake = none → d.pendingTake = none)
    (playing : (∀ g, ln.deck.state ≠ .playing g) → ∀ g, d.state ≠ .playing g) (source : ln.source = .live → x = .live) :
    ln.Stays { ln with deck := d, source := x } :=
  ⟨.of_same rfl rfl rfl rfl rfl, fun bare =>
    ⟨bare.opened, bare.provisional, bare.flush, bare.queue, bare.ready, take bare.take, playing bare.playing,
      source bare.source⟩⟩

section Idle

variable (env : LaneEnv) (r : LaneRun)

/-- An idle lane has no unit to close. -/
theorem closeOpen_stays (cause : CloseCause) : r.lane.Stays (closeOpen env cause r).lane :=
  ⟨closeOpen_flows env r cause, fun bare => by rwa [closeOpen, bare.opened]⟩

theorem flushExpiry_stays : r.lane.Stays (flushExpiry env r).lane :=
  ⟨flushExpiry_flows env r, fun bare => by rwa [flushExpiry, flushDue, bare.flush]⟩

/-- A take that is dropped leaves the deck but for itself (R163). -/
theorem dropTake_lane : (dropTake env r).lane = { r.lane with deck := { r.lane.deck with pendingTake := none } } := by
  unfold dropTake
  split
  · next none => rw [← none]
  · rfl

theorem dropTake_stays : r.lane.Stays (dropTake env r).lane := by
  rw [dropTake_lane]
  exact r.lane.stays_withDeck _ _ (fun _ => rfl) id id

/-- No deck plays on after it is ended (R129). -/
theorem endPlaying_state (g : Nat) : (endPlaying r).lane.deck.state ≠ .playing g := by
  unfold endPlaying
  split
  · exact DeckState.noConfusion
  · next other => exact other g

/-- Ending a deck leaves the builder, the engine and the display set. -/
theorem endPlaying_eq : ∃ d x, (endPlaying r).lane = { r.lane with deck := d, source := x } := by
  unfold endPlaying
  split
  · exact ⟨_, _, rfl⟩
  · exact ⟨_, _, rfl⟩

/-- What ends the deck of an empty lane, drops its take and sets its source LIVE leaves the lane idle (R117, R129). -/
theorem dropTake_endPlaying_bare (opened : r.lane.builder.openUnit = none) (provisional : r.lane.builder.provisional = [])
    (flush : r.lane.builder.flush = none) (queue : r.lane.engine.queue = []) (ready : r.lane.display.nextReady = false) :
    (dropTake env ((endPlaying r).edit fun ln => { ln with source := .live })).lane.Bare := by
  have playing := endPlaying_state r
  obtain ⟨d, x, ended⟩ := endPlaying_eq r
  rw [ended] at playing
  rw [dropTake_lane, LaneRun.edit_lane, ended]
  exact ⟨opened, provisional, flush, queue, ready, rfl, playing, rfl⟩

theorem laneClear_stays (keepStyle : Bool) : r.lane.Stays (laneClear keepStyle env r).lane :=
  ⟨laneClear_flows env r keepStyle, fun _ => dropTake_endPlaying_bare env (r.edit (Lane.swept · keepStyle)) rfl rfl rfl rfl
    (DisplaySet.cleared_nextReady _)⟩

/-- SPLIT feeds nothing where no deck plays (R131). -/
theorem laneSplit_stays : r.lane.Stays (laneSplit env r).lane := by
  have swept := r.lane.swept_flows false
  refine ⟨swept.trans (feed_flows env (r.edit (Lane.swept · false))), fun bare => ?_⟩
  rw [laneSplit, feed_of_notPlaying env (r.edit (Lane.swept · false)) bare.playing]
  exact ⟨rfl, rfl, rfl, rfl, DisplaySet.cleared_nextReady _, bare.take, bare.playing, bare.source⟩

/-- R116: a STOPPED lane starts with nothing waiting. -/
theorem laneStart_lawful (stopped : r.lane.state = .stopped) (h : r.lane.Lawful) : (laneStart env r).lane.Lawful := by
  have bare := r.lane.stoppedEmpty_iff.mp h.stopped stopped
  exact ⟨.of_empty bare.opened bare.provisional bare.queue rfl (DisplaySet.resetAt_serialLawful env.sfc) h.range,
    fun running => nomatch running⟩

/-- R117: a lane that is stopped is idle. -/
theorem laneStop_lawful (h : r.lane.Lawful) : (laneStop env r).lane.Lawful := by
  generalize emptied : r.edit (fun ln => { ln with
    state := .stopped, builder := ln.builder.emptied false, engine := ln.engine.emptied
    display := DisplaySet.resetAt env.sfc, frozen := false, held := false }) = q
  have stops : laneStop env r = dropTake env ((endPlaying q).edit fun ln => { ln with source := .live }) := emptied ▸ rfl
  have flowing : q.lane.Flowing :=
    emptied ▸ .of_empty rfl rfl rfl rfl (DisplaySet.resetAt_serialLawful env.sfc) h.range
  have flows : q.lane.Flows (laneStop env r).lane := stops ▸ (endPlaying_flows q).trans (.trans
    (b := LaneRun.lane (.edit _ _)) (.of_same rfl rfl rfl rfl rfl) (dropTake_flows ..))
  refine ⟨flows.law flowing, (Lane.stoppedEmpty_iff _).mpr fun _ => ?_⟩
  rw [stops]
  subst emptied
  exact dropTake_endPlaying_bare env _ rfl rfl rfl rfl rfl

/-- R191: a lane that is reset is idle. -/
theorem Lane.reset_lawful (ln : Lane) (sfc : Nat) (h : ln.Lawful) : (ln.reset sfc).Lawful :=
  ⟨.of_empty rfl rfl rfl rfl (DisplaySet.resetAt_serialLawful sfc) h.range,
    (Lane.stoppedEmpty_iff _).mpr fun _ => ⟨rfl, rfl, rfl, rfl, rfl, rfl, nofun, rfl⟩⟩

theorem withdrawDeck_stays : r.lane.Stays (withdrawDeck r).lane := by
  unfold withdrawDeck
  refine r.lane.stays_withDeck _ _ ?_ ?_ fun _ => rfl
  · intro take; split <;> exact take
  · intro playing g
    split
    · exact DeckState.noConfusion
    · exact DeckState.noConfusion
    · exact playing g

/-- R136: only the flags of a RUNNING lane are cleared. -/
theorem withdrawFlags_lawful (h : r.lane.Lawful) : (withdrawFlags env r).lane.Lawful := by
  unfold withdrawFlags
  split
  · next runs =>
    have retimed : r.lane.Flows (retime env (r.edit fun ln => { ln with frozen := false, held := false })).lane :=
      .trans (b := LaneRun.lane (.edit r _)) (.of_same rfl rfl rfl rfl rfl) (retime_flows ..)
    exact retimed.lawful runs.1 h
  · exact h

/-- A deck that loses its units, and is not set playing (R150, R153, R160). -/
theorem LaneRun.without_stays (state : DeckState) (idle : ∀ g, state ≠ .playing g) :
    r.lane.Stays (r.editDeck fun d => d.without state).lane := r.lane.stays_withDeck _ _ id (fun _ => idle) id

theorem startPreparing_stays (id : Nat) : r.lane.Stays (startPreparing id env r).lane := r.without_stays _ nofun

theorem abandonDeck_stays : r.lane.Stays (abandonDeck env r).lane :=
  (r.without_stays .empty nofun).trans (dropTake_stays ..)

theorem fillDeck_stays (segment : Nat) (units : List CaptionUnit) : r.lane.Stays (fillDeck segment units env r).lane :=
  r.lane.stays_withDeck _ _ id (fun _ => nofun) id

/-- R163: no take waits on an idle lane. -/
theorem afterPrepare_stays (segment : Nat) (units : List CaptionUnit) (limited : List Nat) :
    r.lane.Stays (afterPrepare segment units limited env r).lane :=
  ⟨afterPrepare_flows env r segment units limited, fun bare => by
    rw [afterPrepare, layoutReports_eq, carryOutPending]
    dsimp only
    rw [bare.take]
    exact bare⟩

theorem invalidateDeck_stays : r.lane.Stays (invalidateDeck env r).lane := by
  unfold invalidateDeck
  split
  · exact r.without_stays .empty nofun
  · exact .refl _

/-- A display set with the same images and the same serial. -/
theorem Lane.stays_withImages (ln : Lane) (d : DisplaySet) (next : d.next = ln.display.next)
    (ready : d.nextReady = ln.display.nextReady) (serial : d.serial = ln.display.serial)
    (air : d.air = ln.display.air) : ln.Stays { ln with display := d } :=
  ⟨ln.flows_withDisplay d next ready fun law => by rwa [DisplaySet.serialLawful, serial, air],
    fun bare => ⟨bare.opened, bare.provisional, bare.flush, bare.queue, ready.trans bare.ready, bare.take, bare.playing,
      bare.source⟩⟩

/-- The alignment check touches neither the images nor the serial (R112). -/
theorem alignCheck_stays (time : TimeBase) (value : Option Nat) : r.lane.Stays (alignCheck time value env r).lane := by
  have missed := r.lane.stays_withImages r.lane.display.alignMiss.1 rfl rfl rfl rfl
  have matched : r.lane.Stays { r.lane with display := r.lane.display.alignMatch.1 } := by
    unfold DisplaySet.alignMatch
    split
    · split <;> exact r.lane.stays_withImages _ rfl rfl rfl rfl
    · exact r.lane.stays_withImages _ rfl rfl rfl rfl
  unfold alignCheck
  dsimp only
  split_ifs
  · exact matched
  · exact matched
  · exact missed
  · exact missed
  · exact .refl _

/-- Parameters in their ranges take effect (R88, R90, R113). -/
theorem applyParams_stays (after : Params) (range : r.lane.params.inRange → after.inRange) :
    r.lane.Stays (applyParams after env r).lane := by
  have ranged (ln : Lane) (same : ln.params = r.lane.params) : ln.Stays { ln with params := after } :=
    ⟨⟨rfl, fun ⟨⟨waits, next, serial⟩, held, words⟩ => ⟨⟨waits, next, serial⟩, range (same ▸ held), words⟩⟩,
      fun bare => ⟨bare.opened, bare.provisional, bare.flush, bare.queue, bare.ready, bare.take, bare.playing,
        bare.source⟩⟩
  have taken : r.lane.Stays (r.edit fun ln => { ln with
      params := after
      display := if r.lane.params.align = after.align then ln.display else ln.display.alignReset }).lane := by
    simp only [LaneRun.edit_lane]
    split
    · exact ranged r.lane rfl
    · exact (r.lane.stays_withImages r.lane.display.alignReset rfl rfl rfl rfl).trans (ranged _ rfl)
  unfold applyParams
  dsimp only
  cases layoutChanged r.lane.params after with
  | true => exact taken.trans (invalidateDeck_stays ..)
  | false => exact taken

end Idle

end Sys2Proof.Machine
end

section
/-! PROOF. What every command keeps of the timeline laws of both lanes, and from it O10. -/

namespace Sys2Proof.Machine

/-! ## The part -/

theorem State.timelinesLawful_iff (s : State) : s.timelinesLawful ↔ ∀ l, (s.lane l).Lawful := by
  simp only [State.timelinesLawful, Lane.lawful_iff]

/-- The timeline laws of both lanes hold after an act where they held before. -/
structure State.Flows (s t : State) : Prop where
  law : s.timelinesLawful → t.timelinesLawful

theorem State.Flows.refl (s : State) : s.Flows s := ⟨id⟩

theorem State.Flows.trans {s t u : State} (h : s.Flows t) (k : t.Flows u) : s.Flows u := ⟨k.law ∘ h.law⟩

/-- An act that leaves the lanes. -/
theorem State.Flows.of_lanes {s t : State} (lanes : t.lanes = s.lanes) : s.Flows t := by
  refine ⟨fun lawful => ?_⟩
  unfold State.timelinesLawful State.lane at lawful ⊢
  rwa [lanes]

theorem foldl_stateFlows {α : Type} (f : State → α → State) (flows : ∀ (s : State) (a : α), s.Flows (f s a)) (as : List α)
    (s : State) : s.Flows (as.foldl f s) := foldl_related .refl .trans f flows as s

section Items

variable (s : State)

theorem State.queueReports_flows (rs : List Report) : s.Flows (s.queueReports rs) := .of_lanes (s.queueReports_lanes rs)

theorem State.report_flows (k : ReportKind) (l : Option LaneId) (w : Option WriterId) (v : Option Nat) :
    s.Flows (s.report k l w v) := s.queueReports_flows [_]

theorem State.setLane_flows (l : LaneId) (x : Lane) (h : (s.lane l).Lawful → x.Lawful) : s.Flows (s.setLane l x) := by
  refine ⟨fun lawful => ?_⟩
  rw [State.timelinesLawful_iff] at lawful ⊢
  intro m
  obtain rfl | other := eq_or_ne m l
  · rw [State.lane_setLane_self]; exact h (lawful m)
  · rw [State.lane_setLane_of_ne s x other]; exact lawful m

/-- A lane's blocks at work on the lane as it stands. -/
theorem State.onLane_flows (l : LaneId) (act : LaneEnv → LaneRun → LaneRun)
    (h : (s.lane l).Lawful → (act (s.env l) { lane := s.lane l, out := [] }).lane.Lawful) : s.Flows (s.onLane l act) :=
  (s.setLane_flows l _ h).trans (State.queueReports_flows ..)

/-- A lane's blocks at work, whether it runs or not. -/
theorem State.onLane_flows_of_stays (l : LaneId) (act : LaneEnv → LaneRun → LaneRun)
    (h : ∀ (env : LaneEnv) (r : LaneRun), r.lane.Stays (act env r).lane) : s.Flows (s.onLane l act) :=
  s.onLane_flows l act (h (s.env l) { lane := s.lane l, out := [] }).lawful

/-- The blocks of a RUNNING lane at work. -/
theorem State.onLane_flows_of_running (l : LaneId) (act : LaneEnv → LaneRun → LaneRun) (running : s.running l = true)
    (h : ∀ (env : LaneEnv) (r : LaneRun), r.lane.Flows (act env r).lane) : s.Flows (s.onLane l act) :=
  s.onLane_flows l act ((h (s.env l) { lane := s.lane l, out := [] }).lawful (of_decide_eq_true running))

/-- A lane's blocks leave it running. -/
theorem State.onLane_running (l : LaneId) (act : LaneEnv → LaneRun → LaneRun)
    (h : ∀ (env : LaneEnv) (r : LaneRun), r.lane.Flows (act env r).lane) : (s.onLane l act).running l = s.running l := by
  rw [State.running, State.onLane_lane_self, (h (s.env l) { lane := s.lane l, out := [] }).state, State.running]

theorem State.withStore_flows (x : Store) : s.Flows (s.withStore x) := .of_lanes rfl

theorem State.setWriter_flows (w : WriterId) (x : Writer) : s.Flows (s.setWriter w x) := .of_lanes rfl

theorem State.restartSupervision_lanes : s.restartSupervision.lanes = s.lanes := by
  unfold State.restartSupervision; split <;> rfl

theorem State.automationGood_flows : s.Flows s.automationGood := .of_lanes (State.restartSupervision_lanes _)

theorem State.withTime_flows (x : TimeBase × List Report) : s.Flows (s.withTime x) :=
  .of_lanes (State.queueReports_lanes { s with time := x.1 } x.2)

end Items

/-! ## Cues and withdraw -/

section Cues

variable (s : State)

theorem State.join_flows : s.Flows s.join := by
  have cleared := s.onLane_flows_of_stays .lane1 (laneClear false) fun env r => laneClear_stays env r false
  unfold State.join
  dsimp only
  split
  · exact cleared
  · exact cleared.trans (.of_lanes rfl)

theorem State.split_flows : s.Flows s.split :=
  .trans (t := { s with following := false }) (.of_lanes rfl) (State.onLane_flows_of_stays _ _ _ laneSplit_stays)

/-- A cue other than JOIN and SPLIT acts on RUNNING lanes alone (R121). -/
theorem State.executeCue_flows (c : Cue) : s.Flows (s.executeCue c) := by
  have oneLane (s : State) (l : LaneId) : s.Flows (s.cueIfAddressed c l) := by
    unfold State.cueIfAddressed State.cueOnLane
    split
    · split
      · exact s.join_flows
      · exact s.split_flows
      · split
        · next running => exact s.onLane_flows_of_running _ _ running fun env r => laneCue_flows env r _ c
        · exact .refl s
    · exact .refl s
  exact (oneLane s .lane0).trans (oneLane _ .lane1)

theorem State.withdraw_flows (byExpiry : Bool) : s.Flows (s.withdraw byExpiry) := by
  have both (act : LaneEnv → LaneRun → LaneRun)
      (h : ∀ (env : LaneEnv) (r : LaneRun), r.lane.Lawful → (act env r).lane.Lawful) (s : State) :
      s.Flows ((s.onLane .lane0 act).onLane .lane1 act) :=
    have one (s : State) (l : LaneId) : s.Flows (s.onLane l act) :=
      s.onLane_flows l act (h (s.env l) { lane := s.lane l, out := [] })
    (one s .lane0).trans (one _ .lane1)
  refine (both _ (fun _ r => (withdrawDeck_stays r).lawful) s).trans <| (both _ withdrawFlags_lawful _).trans <|
    (both _ (fun env r => (dropTake_stays env r).lawful) _).trans <|
    .trans (t := { (_ : State) with schedule := [], supervisionExpiry := none }) (.of_lanes rfl) (State.report_flows ..)

theorem State.acceptCue_flows (p : List Byte) (c : Cue) (target : Option Nat) : s.Flows (s.acceptCue p c target).1 := by
  unfold State.acceptCue
  split
  · exact s.executeCue_flows c
  · split
    · exact s.executeCue_flows c
    · exact (s.report_flows ..).trans (State.executeCue_flows ..)
    · split
      · exact s.report_flows ..
      · exact .of_lanes rfl

theorem takeCueFrame_flows (p : List Byte) : s.Flows (takeCueFrame p s).1 := by
  unfold takeCueFrame
  split
  · exact s.report_flows ..
  · split
    · exact s.report_flows ..
    · exact s.acceptCue_flows ..

end Cues

/-! ## Writers -/

section Writers

variable (s : State)

/-- A writer that leaves its role changes its lane by the close of the open unit alone (R18). -/
theorem State.leaveRole_flows (w : WriterId) : s.Flows (s.leaveRole w) := by
  rw [State.leaveRole_eq]
  refine .trans (t := s.relieved w) ?_ (.of_lanes rfl)
  unfold State.relieved
  split
  · exact s.onLane_flows_of_stays _ _ fun env r => closeOpen_stays env r .handover
  · exact .refl s

theorem State.assignRole_flows (w : WriterId) (r : Role) : s.Flows (s.assignRole w r) := by
  by_cases busy : r = .idle
  · subst busy; exact s.leaveRole_flows w
  · rw [s.assignRole_eq w r busy]
    refine (s.leaveRole_flows w).trans <| .trans (t := (s.leaveRole w).vacated r) ?_ (.of_lanes rfl)
    unfold State.vacated
    split
    · exact State.leaveRole_flows ..
    · exact .refl _

theorem announceChanges_flows (before : PerWriter Writer) : s.Flows (announceChanges before s) :=
  .of_lanes (by rw [announceChanges_eq])

theorem State.stageWord_flows (w : WriterId) (l : LaneId) (t : Text) (attach : Bool) :
    s.Flows (s.stageWord w l t attach) := by
  unfold State.stageWord
  dsimp only
  split
  · exact (s.setWriter_flows w _).trans (State.report_flows ..)
  · exact .of_lanes rfl

/-- R42 to R46: what a handover does to a RUNNING lane. -/
theorem State.relayLane_flows (l : LaneId) (w : WriterId) (out : Bool) (running : s.running l = true) :
    s.Flows (s.relayLane l w out).1 := by
  have closed (env : LaneEnv) (r : LaneRun) := closeOpen_flows env r .handover
  exact (s.onLane_flows_of_running l (fun env => closeOpen env .handover) running closed).trans
    (State.onLane_flows_of_running _ l _ ((s.onLane_running l _ closed).trans running) fun env r =>
      discardAndReplay_flows env r ..)

theorem State.relay_flows (l : LaneId) (w : WriterId) : s.Flows (s.relay l w) := by
  have announced (t : State) (flows : s.Flows t) (k : ReportKind) (lane : Option LaneId) (writer : Option WriterId)
      (v : Option Nat) : s.Flows (State.report (match s.holder (.onAir l) with
        | none => (t.exchangeRoles l w (s.holder (.onAir l))).announceRole w
        | some o => ((t.exchangeRoles l w (s.holder (.onAir l))).announceRole w).announceRole o) k lane writer v) := by
    refine flows.trans <| .trans (t := t.exchangeRoles l w (s.holder (.onAir l)))
      (.of_lanes (by rw [State.exchangeRoles_eq])) <| .trans ?_ (State.report_flows ..)
    split <;> exact .of_lanes rfl
  unfold State.relay
  cases running : s.running l
  · exact announced s (.refl s) ..
  · exact announced _ (s.relayLane_flows _ _ _ running) ..

theorem State.reportSubstituted_flows (w : WriterId) (l : LaneId) (t : Text) : s.Flows (s.reportSubstituted w l t) := by
  unfold State.reportSubstituted
  split
  · exact .refl s
  · exact s.report_flows ..

@[simp] theorem State.reportSubstituted_running (w : WriterId) (l : LaneId) (t : Text) (m : LaneId) :
    (s.reportSubstituted w l t).running m = s.running m := by
  unfold State.reportSubstituted
  split
  · rfl
  · unfold State.running; rw [State.report_lane]

/-- A message that is judged reaches the builder of a RUNNING lane alone (R21, R24). -/
theorem State.judgeMessage_flows (w : WriterId) (kind : Byte) (bad : Option Reason)
    (suppressed onAir staged : State → LaneId → State) (h1 : ∀ l, s.running l = true → s.Flows (suppressed s l))
    (h2 : ∀ l, s.running l = true → s.Flows (onAir s l)) (h3 : ∀ l, s.Flows (staged s l)) :
    s.Flows (s.judgeMessage w kind bad suppressed onAir staged) := by
  unfold State.judgeMessage
  split
  · exact .of_lanes rfl
  · split
    · next l _ running =>
      split
      · exact .of_lanes rfl
      · split
        · exact h1 l running
        · exact h2 l running
    · exact .of_lanes rfl
  · split
    · exact .of_lanes rfl
    · exact h3 _

theorem State.takeWord_flows (w : WriterId) (p : List Byte) : s.Flows (s.takeWord w p) := by
  unfold State.takeWord
  split
  · exact .of_lanes rfl
  · refine s.judgeMessage_flows w _ _ _ _ _ (fun l running => ?_) (fun l running => ?_) fun l => ?_
    · exact s.onLane_flows_of_running _ _ running fun _ _ => .of_same rfl rfl rfl rfl rfl
    · exact (s.reportSubstituted_flows ..).trans (State.onLane_flows_of_running _ _ _
        (by rwa [State.reportSubstituted_running]) fun env r => layWord_flows env r ..)
    · exact (s.reportSubstituted_flows ..).trans (State.stageWord_flows ..)

theorem State.takeBreak_flows (w : WriterId) (p : List Byte) : s.Flows (s.takeBreak w p) := by
  unfold State.takeBreak
  split
  · exact .of_lanes rfl
  · exact s.judgeMessage_flows w _ _ _ _ _ (fun _ _ => .refl s)
      (fun _ _ => s.onLane_flows_of_stays _ _ fun env r => closeOpen_stays env r .brk) fun _ => .of_lanes rfl

theorem State.takeSpeaker_flows (w : WriterId) (p : List Byte) : s.Flows (s.takeSpeaker w p) := by
  unfold State.takeSpeaker
  split
  · exact s.judgeMessage_flows w _ _ _ _ _ (fun _ _ => .refl s)
      (fun _ running => s.onLane_flows_of_running _ _ running fun env r => speakerChange_flows env r ..)
      fun _ => .of_lanes rfl
  · exact .of_lanes rfl

theorem State.takeDelete_flows (w : WriterId) (p : List Byte) : s.Flows (s.takeDelete w p) := by
  unfold State.takeDelete
  split
  · exact s.judgeMessage_flows w _ _ _ _ _ (fun _ _ => .refl s)
      (fun _ running => s.onLane_flows_of_running _ _ running fun env r => laneDelete_flows env r ..)
      fun _ => .of_lanes rfl
  · exact .of_lanes rfl

theorem State.takeTake_flows (w : WriterId) (p : List Byte) : s.Flows (s.takeTake w p) := by
  unfold State.takeTake
  split
  · exact .of_lanes rfl
  · split
    · exact s.relay_flows ..
    · exact .of_lanes rfl

theorem State.takeQuery_flows (w : WriterId) (p : List Byte) : s.Flows (s.takeQuery w p) := by
  unfold State.takeQuery
  split <;> exact .of_lanes rfl

theorem State.takeMessage_flows (w : WriterId) (kind : Byte) (p : List Byte) : s.Flows (s.takeMessage w kind p) := by
  unfold State.takeMessage
  split_ifs
  · exact s.takeWord_flows w p
  · exact s.takeBreak_flows w p
  · exact s.takeSpeaker_flows w p
  · exact s.takeDelete_flows w p
  · exact s.takeTake_flows w p
  · exact s.takeQuery_flows w p
  · exact .of_lanes rfl

end Writers

/-! ## Requests -/

section Handlers

variable (p : List Byte) (s : State)

theorem configureLaneRequest_flows : s.Flows (configureLaneRequest p s).1 := by
  unfold configureLaneRequest
  split
  · exact .refl s
  · next l _ =>
    split
    · exact .refl s
    · next after applied written =>
      split
      · exact .refl s
      · exact s.onLane_flows l _ (applyParams_stays (s.env l) { lane := s.lane l, out := [] } after
          (writeParam_inRange _ after _ _ applied written)).lawful

theorem configureWriterRequest_flows : s.Flows (configureWriterRequest p s).1 := by
  unfold configureWriterRequest
  split <;> exact .of_lanes rfl

theorem setStyleRequest_flows : s.Flows (setStyleRequest p s).1 := by
  unfold setStyleRequest
  dsimp only
  split
  · exact .refl s
  · split <;> exact .of_lanes rfl

theorem setStyleLimitRequest_flows : s.Flows (setStyleLimitRequest p s).1 := .of_lanes rfl

theorem cancelCueRequest_flows : s.Flows (cancelCueRequest p s).1 := .of_lanes rfl

theorem releaseRequest_flows : s.Flows (releaseRequest p s).1 := by
  dsimp only [releaseRequest]
  exact s.withdraw_flows false

theorem pollRequest_flows : s.Flows (pollRequest p s).1 := .of_lanes rfl

theorem setFrameRateRequest_flows : s.Flows (setFrameRateRequest p s).1 := by
  unfold setFrameRateRequest
  split
  · exact .refl s
  · split <;> exact .of_lanes rfl

theorem setSupervisionRequest_flows : s.Flows (setSupervisionRequest p s).1 := by
  unfold setSupervisionRequest
  dsimp only
  split
  · exact .of_lanes rfl
  · exact .of_lanes (State.restartSupervision_lanes { s with supervisionInterval := clamp 0 60 (byteAt p 0) })

theorem assignRequest_flows : s.Flows (assignRequest p s).1 := by
  unfold assignRequest
  split
  · exact (s.assignRole_flows ..).trans (announceChanges_flows ..)
  · exact .refl s

theorem handoverRequest_flows : s.Flows (handoverRequest p s).1 := by
  unfold handoverRequest
  split
  · exact .refl s
  · split
    · exact .refl s
    · exact s.relay_flows ..

theorem State.forgetFollowed_flows (l : LaneId) : s.Flows (s.forgetFollowed l) := by
  cases l <;> exact .of_lanes rfl

theorem startRequest_flows : s.Flows (startRequest p s).1 := by
  unfold startRequest
  split
  · exact .refl s
  · next l _ =>
    split
    · exact .refl s
    · next idle =>
      have stopped : (s.lane l).state = .stopped := by
        cases state : (s.lane l).state with
        | stopped => rfl
        | running => exact absurd (State.running_iff.mpr state) idle
      exact (s.onLane_flows l laneStart (laneStart_lawful _ { lane := s.lane l, out := [] } stopped)).trans
        (State.forgetFollowed_flows ..)

theorem stopRequest_flows : s.Flows (stopRequest p s).1 := by
  unfold stopRequest
  split
  · exact .refl s
  · next l _ =>
    split
    · exact (s.onLane_flows l laneStop (laneStop_lawful (s.env l) { lane := s.lane l, out := [] })).trans (State.forgetFollowed_flows ..)
    · exact .refl s

theorem loadBufferRequest_flows : s.Flows (loadBufferRequest p s).1 := by
  unfold loadBufferRequest
  dsimp only
  split
  · exact .refl s
  · split_ifs <;> exact .of_lanes rfl

theorem commitRequest_flows : s.Flows (commitRequest p s).1 := by
  unfold commitRequest
  dsimp only
  split
  · exact .refl s
  · split_ifs <;> exact .of_lanes rfl

theorem compareRequest_flows : s.Flows (compareRequest p s).1 := by
  unfold compareRequest
  dsimp only
  split
  · exact .refl s
  · split_ifs <;> exact .of_lanes rfl

theorem defineSegmentRequest_flows : s.Flows (defineSegmentRequest p s).1 := by
  unfold defineSegmentRequest
  dsimp only
  split_ifs <;> exact .of_lanes rfl

theorem deleteSegmentRequest_flows : s.Flows (deleteSegmentRequest p s).1 := by
  unfold deleteSegmentRequest
  dsimp only
  split_ifs <;> exact .of_lanes rfl

theorem prepareRequest_flows : s.Flows (prepareRequest p s).1 := by
  unfold prepareRequest
  dsimp only
  split
  · exact .refl s
  · split
    · exact .refl s
    · split
      · exact .refl s
      · exact (s.withStore_flows _).trans
          (State.onLane_flows_of_stays _ _ _ fun env r => startPreparing_stays env r _)

theorem State.resetStore_flows : s.Flows s.resetStore := by
  have terminated : s.Flows (s.withStore s.store.terminated) := .of_lanes rfl
  unfold State.resetStore
  dsimp only
  split
  · exact .refl s
  · exact terminated.trans (State.report_flows ..)
  · exact terminated.trans (State.report_flows ..)
  · exact terminated.trans <| (State.onLane_flows_of_stays _ _ _ abandonDeck_stays).trans (State.report_flows ..)

/-- R190: the counters are none of the items of the laws. -/
theorem clearCountersRequest_flows : s.Flows (clearCountersRequest p s).1 := by
  have zeroed (ln : Lane) : ln.Stays { ln with counters := Counters.zero } :=
    ⟨.of_same rfl rfl rfl rfl rfl, fun bare => ⟨bare.opened, bare.provisional, bare.flush, bare.queue, bare.ready, bare.take,
      bare.playing, bare.source⟩⟩
  refine ⟨fun lawful => ?_⟩
  rw [State.timelinesLawful_iff] at lawful ⊢
  intro l
  rw [clearCountersRequest, State.zeroCounters_lane]
  exact (zeroed _).lawful (lawful l)

theorem State.resetBlocks_flows : s.Flows s.resetBlocks := by
  refine ⟨fun lawful => ?_⟩
  rw [State.timelinesLawful_iff] at lawful ⊢
  intro l
  rw [State.resetBlocks_lane]
  exact (s.lane l).reset_lawful _ (lawful l)

theorem statusRequest_flows : s.Flows (statusRequest p s).1 := by
  unfold statusRequest; split <;> exact .refl s

theorem engineResetRequest_flows : s.Flows (engineResetRequest p s).1 :=
  s.resetStore_flows.trans <| (State.resetBlocks_flows _).trans <| .trans (announceChanges_flows ..) <|
    .trans (t := { (_ : State) with reports := [], reportOverflow := false }) (.of_lanes rfl) (State.report_flows ..)

end Handlers

/-- Every request of the table keeps the timeline laws. -/
theorem requestHandler_flows (kind : Byte) (handle : List Byte → State → State × Reply)
    (h : requestHandler kind = some handle) (p : List Byte) (s : State) : s.Flows (handle p s).1 := by
  unfold requestHandler at h
  split at h
  any_goals obtain rfl := Option.some.inj h
  · exact configureLaneRequest_flows p s
  · exact configureWriterRequest_flows p s
  · exact setStyleRequest_flows p s
  · exact setStyleLimitRequest_flows p s
  · exact setFrameRateRequest_flows p s
  · exact setSupervisionRequest_flows p s
  · exact assignRequest_flows p s
  · exact handoverRequest_flows p s
  · exact startRequest_flows p s
  · exact stopRequest_flows p s
  · exact loadBufferRequest_flows p s
  · exact commitRequest_flows p s
  · exact compareRequest_flows p s
  · exact defineSegmentRequest_flows p s
  · exact deleteSegmentRequest_flows p s
  · exact prepareRequest_flows p s
  · exact s.resetStore_flows
  · exact cancelCueRequest_flows p s
  · exact releaseRequest_flows p s
  · exact pollRequest_flows p s
  · exact statusRequest_flows p s
  · exact clearCountersRequest_flows p s
  · exact engineResetRequest_flows p s
  · cases h

/-! ## Frames -/

section Frames

variable (s : State)

/-- A frame that is held back, refused or handed on and answered. -/
theorem State.serve_flows (kind : Byte) (ok : Bool) (p : List Byte) (handle : List Byte → State → State × Reply)
    (flows : s.Flows (handle p s).1) : s.Flows (s.serve kind ok p handle) := by
  unfold State.serve
  split
  · exact .refl s
  · split
    · exact flows.trans (.of_lanes rfl)
    · exact .of_lanes rfl

theorem State.request_flows (kind : Byte) (p : List Byte) (handle : List Byte → State → State × Reply)
    (h : requestHandler kind = some handle) : s.Flows (s.request kind p handle) :=
  s.automationGood_flows.trans (State.serve_flows _ _ _ _ _ (requestHandler_flows kind handle h p _))

theorem requestRow_flows (kind : Byte) (p : List Byte) (handle : List Byte → State → State × Reply)
    (h : requestHandler kind = some handle) : s.Flows (requestRow kind p handle s) :=
  .trans (t := s.frameClosed .automation) (.of_lanes rfl) (State.request_flows _ kind p handle h)

theorem State.cueFrame_flows (broadcast : Bool) (p : List Byte) : s.Flows (s.cueFrame broadcast p) := by
  have taken := takeCueFrame_flows s.automationGood p
  unfold State.cueFrame
  split
  · exact s.automationGood_flows.trans taken
  · exact s.automationGood_flows.trans (State.serve_flows _ _ _ _ _ taken)

theorem cueRow_flows (kind : CueKind) (broadcast : Bool) (rest : List Byte) : s.Flows (cueRow kind broadcast rest s) :=
  .trans (t := s.frameClosed .automation) (.of_lanes rfl) (State.cueFrame_flows ..)

theorem State.automationFrame_flows (kind : Byte) (p : List Byte) : s.Flows (s.automationFrame kind p) := by
  unfold State.automationFrame
  split
  · exact s.cueFrame_flows false p
  · split
    · next handle h => exact s.request_flows kind p handle h
    · unfold State.refuseKind
      dsimp only
      refine s.automationGood_flows.trans ?_
      split <;> exact .of_lanes rfl

/-- A reply clears the changed flag at most (R103). -/
theorem Lane.told_stays (ln : Lane) : ln.Stays { ln with display := { ln.display with changed := false } } :=
  ln.stays_withImages _ rfl rfl rfl rfl

theorem State.replyOwn_flows (l : LaneId) (everyFrame : Bool) : s.Flows (s.replyOwn l everyFrame) := by
  have told : s.Flows (s.setLane l { s.lane l with display := { (s.lane l).display with changed := false } }) :=
    s.setLane_flows l _ (s.lane l).told_stays.lawful
  unfold State.replyOwn
  dsimp only
  split
  · exact told.trans (.of_lanes rfl)
  · exact .of_lanes rfl

theorem State.replyFollowing_flows : s.Flows s.replyFollowing := by
  have told := s.setLane_flows .lane1 _ (s.lane .lane1).told_stays.lawful
  unfold State.replyFollowing
  dsimp only
  split
  · exact told.trans (.of_lanes rfl)
  · exact .of_lanes rfl

/-- An image comes to air, or is blanked, on a RUNNING lane alone (R104, R106). -/
theorem State.takeRequest_flows (l : LaneId) (word : TimecodeWord) : s.Flows (s.takeRequest l word) := by
  unfold State.takeRequest
  dsimp only
  refine (s.onLane_flows_of_stays l (alignCheck s.time (timecodeFrames word s.time.rate)) fun env r =>
    alignCheck_stays env r ..).trans ?_
  split
  · exact State.replyFollowing_flows _
  · split
    · next running =>
      exact (State.onLane_flows_of_running _ _ _ running serveImage_flows).trans (State.replyOwn_flows ..)
    · exact State.replyOwn_flows ..

theorem State.inserterFrame_flows (l : LaneId) (kind : Byte) (p : List Byte) : s.Flows (s.inserterFrame l kind p) := by
  have counted : s.Flows (s.countGood (.inserter l)) := .of_lanes rfl
  unfold State.inserterFrame
  dsimp only
  refine counted.trans ?_
  split_ifs
  · exact .refl _
  · exact .of_lanes rfl
  · exact .of_lanes rfl
  · exact State.takeRequest_flows ..

theorem State.receiverEvent_flows (k : Link) (e : RxEvent) : s.Flows (State.receiverEvent k s e) := by
  cases e with
  | abort | checkError | sizeError => exact .of_lanes rfl
  | frame address kind p =>
    unfold State.receiverEvent State.filterFrame
    dsimp only
    split
    · cases k with
      | writer w => exact .trans (t := s.countGood (.writer w)) (.of_lanes rfl) (State.takeMessage_flows ..)
      | automation => exact s.automationFrame_flows kind p
      | inserter l => exact s.inserterFrame_flows l kind p
    · split
      · split
        · exact s.cueFrame_flows true p
        · exact .of_lanes s.restartSupervision_lanes
      · exact .refl s

theorem State.receive_flows (k : Link) (line : List LineByte) : s.Flows (s.receive k line) :=
  .trans (t := s.setLink k _) (.of_lanes rfl)
    (foldl_stateFlows (State.receiverEvent k) (fun s e => s.receiverEvent_flows k e) _ _)

/-! ## Completions and commands -/

theorem State.completeCommit_flows : s.Flows s.completeCommit := by
  unfold State.completeCommit
  split
  · exact (s.withStore_flows _).trans (State.report_flows ..)
  · exact .refl s

theorem State.completeCompare_flows : s.Flows s.completeCompare := by
  unfold State.completeCompare
  split
  · exact (s.withStore_flows _).trans (State.report_flows ..)
  · exact .refl s

theorem State.completePrepare_flows : s.Flows s.completePrepare := by
  unfold State.completePrepare
  split
  · exact (s.onLane_flows_of_stays _ _ fun env r => fillDeck_stays env r ..).trans <|
      (State.withStore_flows ..).trans <| (State.report_flows ..).trans (State.onLane_flows_of_stays _ _ _ fun env r => afterPrepare_stays env r ..)
  · exact .refl s

end Frames

/-- Every command keeps the timeline laws. -/
theorem exec_flows (c : Instr) (s t : State) (h : exec c s = .next t) : s.Flows t := by
  have flows (u : State) (e : exec c s = .next u) (k : s.Flows u) : s.Flows t :=
    Host.Outcome.next.inj (e.symm.trans h) ▸ k
  have good (w : WriterId) : s.Flows (s.goodFrame (.writer w)) := .of_lanes rfl
  have closed (k : Link) : s.Flows (s.frameClosed k) := .of_lanes rfl
  cases c with
  | powerOn straps => exact flows _ rfl ⟨fun _ => State.powerOn_timelinesLawful straps⟩
  | pulseArrival tc => exact flows _ rfl (s.withTime_flows _)
  | pulseSupervisionExpiry | internalGeneratorExpiry =>
    refine flows _ rfl ?_
    split
    · exact s.withTime_flows _
    · exact .refl s
  | sameFrameWindowClose => exact flows _ rfl (.of_lanes rfl)
  | flushTimerExpiry l => exact flows _ rfl (s.onLane_flows_of_stays _ _ flushExpiry_stays)
  | correctionWindowExpiry l =>
    refine flows _ rfl ?_
    split
    · next running => exact s.onLane_flows_of_running _ _ running timeDue_flows
    · exact .refl s
  | cueScheduleDue =>
    have left : s.Flows { s with schedule := (dueCues s.time.sfc s.schedule).2 } := .of_lanes rfl
    exact flows _ (exec_cueScheduleDue s)
      (left.trans (foldl_stateFlows (fun s (e : ScheduledCue) => s.executeCue e.cue) (fun s e => s.executeCue_flows e.cue) _ _))
  | automationSupervisionExpiry =>
    refine flows _ rfl ?_
    split
    · exact .refl s
    · split
      · exact s.withdraw_flows true
      · exact .refl s
  | word w p => exact flows _ rfl ((good w).trans (State.takeWord_flows ..))
  | breakMark w p => exact flows _ rfl ((good w).trans (State.takeBreak_flows ..))
  | speaker w p => exact flows _ rfl ((good w).trans (State.takeSpeaker_flows ..))
  | delete w p => exact flows _ rfl ((good w).trans (State.takeDelete_flows ..))
  | writerTake w p => exact flows _ rfl ((good w).trans (State.takeTake_flows ..))
  | query w p => exact flows _ rfl ((good w).trans (State.takeQuery_flows ..))
  | writerFrameRefused w kind p => exact flows _ rfl ((good w).trans (State.takeMessage_flows ..))
  | inserterRequest l p | inserterFrameRefused l kind p =>
    exact flows _ rfl ((closed _).trans (State.inserterFrame_flows ..))
  | commitCompletion => exact flows _ rfl s.completeCommit_flows
  | compareCompletion => exact flows _ rfl s.completeCompare_flows
  | prepareCompletion => exact flows _ rfl s.completePrepare_flows
  | transmitFrame k =>
    refine flows _ rfl (.of_lanes ?_)
    unfold State.transmit
    split <;> rfl
  | configureLane p | configureWriter p | setStyle p | setStyleLimit p | setFrameRate p | setSupervision p
  | assign p | handover p | start p | stop p | loadBuffer p | commit p | compare p | defineSegment p
  | deleteSegment p | prepare p | storeReset p | cancelCue p | release p | poll p | status p | clearCounters p
  | engineReset p =>
    exact flows _ rfl (requestRow_flows s _ p _ rfl)
  | automationFrameRefused kind p => exact flows _ rfl ((closed _).trans (State.automationFrame_flows ..))
  | freeze b rest | thaw b rest | hold b rest | resume b rest | stepCue b rest | clear b rest | join b rest
  | split b rest | takeCue b rest | advance b rest | endCue b rest =>
    exact flows _ rfl (cueRow_flows s _ b rest)
  | abort k line | checkError k line | sizeError k line | frameIgnored k line => exact flows _ rfl (s.receive_flows k line)
  | flagArrival k => exact flows _ rfl (s.receive_flows k _)

/-- Settles O10, from what every command keeps. -/
theorem timelinesStayLawful : Obligations.TimelinesStayLawful := by
  unfold Obligations.TimelinesStayLawful
  intro s t lawful h
  cases queue : s.pending with
  | nil =>
    obtain rfl : s = t := by simpa [step, queue] using h
    exact lawful
  | cons c rest =>
    have run : exec c { s with pending := rest } = .next t := by simpa [step, queue] using h
    have taken : s.Flows { s with pending := rest } := .of_lanes rfl
    exact (taken.trans (exec_flows c _ t run)).law lawful

end Sys2Proof.Machine
end

section
/-! PROOF. The close by the flush timer, START, STOP and CLEAR: O21, O39 and O49. -/

namespace Sys2Proof.Machine

/-! ## The flush timer (R57, R58) -/

section Flush

variable (env : LaneEnv) (r : LaneRun) {x : Nat}

/-- The flush timer expires at its frame, and after it (R58). -/
theorem flushDue_of_some {ln : Lane} (timer : ln.builder.flush = some x) : flushDue env ln = decide (x ≤ env.sfc) := by
  rw [flushDue, timer]

theorem flushExpiry_of_due (timer : r.lane.builder.flush = some x) (due : x ≤ env.sfc) :
    flushExpiry env r = (closeOpen env .flush r).editBuilder fun b => { b with flush := none } := by
  rw [flushExpiry, flushDue_of_some env timer, if_pos (decide_eq_true due)]

theorem flushExpiry_of_early (timer : r.lane.builder.flush = some x) (early : ¬ x ≤ env.sfc) : flushExpiry env r = r := by
  rw [flushExpiry, flushDue_of_some env timer, if_neg (by simpa using early)]

end Flush

/-- Settles O21: a due timer closes the open unit, which times nothing here, and the close already clears the timer. -/
theorem flushClosesTheUnit : Obligations.FlushClosesTheUnit := by
  unfold Obligations.FlushClosesTheUnit
  intro s l u x opened timer quiet
  refine congrArg Host.Outcome.next ?_
  by_cases due : x ≤ s.time.sfc
  · have closed := closeOpen_eq s l { lane := s.lane l, out := [] } rfl quiet.2.2 (s.closable_of_closesQuietly l quiet) .flush
    rw [s.closedQuietly_of_some l _ .flush opened] at closed
    rw [if_pos due, State.onLane_of_building_quiet s l (b := { (s.lane l).builder with
      openUnit := none, flush := none, provisional := (s.lane l).builder.provisional ++ [s.closedUnit l u .flush] })
      (by rw [flushExpiry_of_due _ _ timer due, closed]; rfl)]
    rfl
  · rw [if_neg due, State.onLane_of_quiet _ _ _ (by rw [flushExpiry_of_early _ _ timer due]),
      flushExpiry_of_early _ _ timer due, s.setLane_lane]

/-! ## A lane on which no deck plays and no take waits (R129, R163) -/

section NoDeck

variable (env : LaneEnv) (r : LaneRun)

theorem endPlaying_of_notPlaying (idle : ∀ g, r.lane.deck.state ≠ .playing g) : endPlaying r = r := by
  unfold endPlaying
  split
  · next g playing => exact absurd playing (idle g)
  · rfl

theorem dropTake_of_none (free : r.lane.deck.pendingTake = none) : dropTake env r = r := by
  unfold dropTake
  rw [free]

/-- CLEAR of such a lane sweeps it and sets its source LIVE (R129). -/
theorem laneClear_of_notPlaying (keepStyle : Bool) (idle : ∀ g, r.lane.deck.state ≠ .playing g)
    (free : r.lane.deck.pendingTake = none) :
    laneClear keepStyle env r = r.edit fun ln => { ln.swept keepStyle with source := .live } := by
  unfold laneClear
  rw [endPlaying_of_notPlaying (r.edit (Lane.swept · keepStyle)) idle]
  exact dropTake_of_none env _ free

/-- STOP of such a lane empties it (R117). -/
theorem laneStop_of_notPlaying (idle : ∀ g, r.lane.deck.state ≠ .playing g) (free : r.lane.deck.pendingTake = none) :
    laneStop env r = r.edit fun ln => { ln with
      state := .stopped, source := .live, frozen := false, held := false
      builder := ln.builder.emptied false, engine := ln.engine.emptied, display := DisplaySet.resetAt env.sfc } := by
  unfold laneStop
  rw [endPlaying_of_notPlaying]
  · exact dropTake_of_none env _ free
  · exact idle

end NoDeck

/-! ## START and STOP (R116, R117) -/

section Lanes

variable (s : State) (l : LaneId)

/-- Lane 1 forgets what it followed; lane 0 never follows (R134). -/
theorem State.forgetFollowed_eq : s.forgetFollowed l = { s with
    followedSerial := if l = .lane1 then none else s.followedSerial
    followedStatus := if l = .lane1 then none else s.followedStatus } := by
  cases l <;> rfl

/-- A request with one field, the number of a lane. -/
theorem laneOf_byteAt : laneOf (byteAt [BitVec.ofNat 8 (laneNumber l)] 0) = some l := by cases l <;> rfl

theorem startRequest_of_stopped (stopped : (s.lane l).state = .stopped) :
    startRequest [BitVec.ofNat 8 (laneNumber l)] s = ((s.onLane l laneStart).forgetFollowed l, .ack none) := by
  have idle : ¬ s.running l = true := by rw [State.running_iff, stopped]; exact LaneState.noConfusion
  simp only [startRequest, laneOf_byteAt, if_neg idle]

theorem stopRequest_of_running (running : (s.lane l).state = .running) :
    stopRequest [BitVec.ofNat 8 (laneNumber l)] s = ((s.onLane l laneStop).forgetFollowed l, .ack none) := by
  simp only [stopRequest, laneOf_byteAt, if_pos (State.running_iff.mpr running)]

end Lanes

/-- Settles O39, from what a start and a stop do to the lane, which queues no report. -/
theorem startAndStop : Obligations.StartAndStop := by
  unfold Obligations.StartAndStop
  intro s l room
  refine ⟨fun stopped => ?_, fun running free idle => ?_⟩
  · have started := startRequest_of_stopped s.heard l stopped
    rw [State.onLane_of_quiet s.heard l laneStart rfl, State.forgetFollowed_eq] at started
    exact congrArg _ (requestRow_of_ack 0x28 _ _ s _ none room rfl started)
  · have emptied := laneStop_of_notPlaying (s.env l) { lane := s.lane l, out := [] } idle free
    have stopped := stopRequest_of_running s.heard l running
    rw [State.onLane_of_quiet s.heard l laneStop (congrArg LaneRun.out emptied), State.forgetFollowed_eq, State.heard_env,
      State.heard_lane, emptied] at stopped
    exact congrArg _ (requestRow_of_ack 0x29 _ _ s _ none room rfl stopped)

/-! ## CLEAR (R68, R85, R109, R129) -/

theorem mem_cueTable_clear : (6, CueKind.clear, Instr.clear) ∈ cueTable := by simp [cueTable]

/-- An image is blank when it has no row. -/
theorem Image.isBlank_iff (i : Image) : i.isBlank = true ↔ i.rows = [] := List.isEmpty_iff

theorem DisplaySet.cleared_eq (d : DisplaySet) : d.cleared = d.blankedByCue := by
  unfold DisplaySet.cleared DisplaySet.blankedByCue
  simp only [Image.isBlank_iff]
  rfl

/-- Settles O49: the lane is swept, its style state kept, and its deck has nothing to end. -/
theorem clearEmptiesTheLane : Obligations.ClearEmptiesTheLane := by
  unfold Obligations.ClearEmptiesTheLane
  intro s l broadcast mask tag segment a b c only running room empty free
  refine exec_cue_of_quiet only running room mem_cueTable_clear nofun ⟨nofun, nofun⟩ ?_
  have idle (g : Nat) : (s.lane l).deck.state ≠ .playing g := by rw [empty]; exact DeckState.noConfusion
  refine (laneClear_of_notPlaying (s.env l) { lane := s.lane l, out := [] } true idle free).trans ?_
  simp only [LaneRun.edit, Lane.swept, DisplaySet.cleared_eq]
  rfl

end Sys2Proof.Machine
end

section
/-! PROOF. The correction window: the due unit is timed onto a free or a full queue, and a late one cuts the unit before it:
O22 and O23. -/

namespace Sys2Proof.Machine

/-! ## The row (R62) -/

section Due

variable (s : State) {l : LaneId} {p : Provisional} {left : List Provisional}

/-- The one due unit, at the head of the provisional list, leaves the list and is timed (R62). -/
theorem timeDue_of_one (env : LaneEnv) (r : LaneRun) (list : r.lane.builder.provisional = p :: left)
    (due : p.windowEnd ≤ env.sfc) (alone : ∀ q ∈ left.head?, env.sfc < q.windowEnd) :
    timeDue env r = timeUnit env env.sfc p.unit { r with lane := r.lane.provisionally left } := by
  have taken : left.takeWhile (fun q => decide (q.windowEnd ≤ env.sfc)) = []
      ∧ left.dropWhile (fun q => decide (q.windowEnd ≤ env.sfc)) = left := by
    cases left with
    | nil => exact ⟨rfl, rfl⟩
    | cons q left =>
      have early : ¬ decide (q.windowEnd ≤ env.sfc) = true := by simpa using alone q rfl
      exact ⟨List.takeWhile_cons_of_neg early, List.dropWhile_cons_of_neg early⟩
  unfold timeDue
  dsimp only
  simp only [list, List.takeWhile_cons, List.dropWhile_cons, decide_eq_true due, if_true, taken]
  rfl

variable (running : (s.lane l).state = .running) (list : (s.lane l).builder.provisional = p :: left)
  (due : p.windowEnd ≤ s.time.sfc) (alone : ∀ q ∈ left.head?, s.time.sfc < q.windowEnd) {ln : Lane} {rs : List Report}
include running list due alone

/-- The row on a RUNNING lane with one due unit, where the reports of its timing find room. -/
theorem exec_correctionWindow (timed : timeUnit (s.env l) s.time.sfc p.unit
      { lane := (s.lane l).provisionally left, out := [] } = { lane := ln, out := rs })
    (room : s.reports.length + rs.length ≤ 32) :
    exec (.correctionWindowExpiry l) s = .next { s.setLane l ln with reports := s.reports ++ rs } := by
  have acts : timeDue (s.env l) { lane := s.lane l, out := [] } = { lane := ln, out := rs } :=
    (timeDue_of_one (s.env l) _ list due alone).trans timed
  rw [← State.onLane_of_run s l acts room]
  exact congrArg _ (if_pos (State.running_iff.mpr running))

/-- The row on a RUNNING lane with one due unit, where its timing queues no report. -/
theorem exec_correctionWindow_of_quiet (timed : timeUnit (s.env l) s.time.sfc p.unit
      { lane := (s.lane l).provisionally left, out := [] } = { lane := ln, out := [] }) :
    exec (.correctionWindowExpiry l) s = .next (s.setLane l ln) := by
  have acts : timeDue (s.env l) { lane := s.lane l, out := [] } = { lane := ln, out := [] } :=
    (timeDue_of_one (s.env l) _ list due alone).trans timed
  have quiet := State.onLane_of_quiet s l timeDue (congrArg LaneRun.out acts)
  rw [acts] at quiet
  exact congrArg _ ((if_pos (State.running_iff.mpr running)).trans quiet)

end Due

/-! ## The timing of a live unit (R80 to R83) -/

section Timing

variable (env : LaneEnv) (now : Nat) (t : TimedUnit) (r : LaneRun)

/-- A lane whose queue loses its head, counted (R82). -/
def Lane.discarding (ln : Lane) (rest : List TimedUnit) : Lane :=
  { ln with
    engine := { ln.engine with queue := rest }
    counters := { ln.counters with discarded := min (ln.counters.discarded + 1) 65535 } }

/-- A full queue loses its head to the new unit (R82). -/
theorem appendTimed_of_full {h : TimedUnit} {rest : List TimedUnit} (queue : r.lane.engine.queue = h :: rest)
    (full : r.lane.engine.queue.length = 32) :
    appendTimed env now t r = (LaneRun.emit { r with lane := (r.lane.discarding rest).queueing t } env .queueFullDiscard
      h.unit.writer (some (min (now - h.release) 4294967295))) := by
  have capacity : Config.queueCapacity ≤ r.lane.engine.queue.length := full.ge
  unfold appendTimed
  dsimp only
  rw [if_pos (by exact capacity)]
  simp only [discardHead, LaneRun.edit_lane, queue]
  rfl

variable {u : CaptionUnit} {v : WriterId} (live : u.origin = .live v)
include live

/-- A live unit whose predecessor is cut as it is, joins the queue, and composition follows. -/
theorem timeUnit_of_joined {q : LaneRun} (joined : appendTimed env now (timedUnit r.lane.params env.rate r.lane.engine now u)
      (cutIfLate env (timedUnit r.lane.params env.rate r.lane.engine now u) r) = q) :
    timeUnit env now u r = { q with lane := q.lane.composed } := by
  unfold timeUnit
  dsimp only
  rw [joined, joinScriptWords_of_live u _ v live, compose_eq]

end Timing

/-- A unit's base frame, where its onset is known (R74). -/
theorem timedUnit_base (p : Params) (rate : Rate) (e : Engine) (now : Nat) {u : CaptionUnit} {on : Int}
    (onset : u.onset = some on) : (timedUnit p rate e now u).base = baseFrame p on now := by
  simp only [timedUnit, onset, Option.getD_some]

/-- Settles O22: the due unit, which cuts none before it, joins a free queue, or a full one without its head. -/
theorem dueUnitIsTimed : Obligations.DueUnitIsTimed := by
  unfold Obligations.DueUnitIsTimed
  intro s l p left on w running list due alone onset live behind
  have within := lateness_le_of_behind behind
  refine ⟨timedUnit (s.lane l).params s.time.rate (s.lane l).engine s.time.sfc p.unit,
    timedUnit_timedAfter _ _ _ _ _ onset, fun room => ?_, fun h rest queue full report => ?_⟩
  · exact exec_correctionWindow_of_quiet s running list due alone
      (timeUnit_of_fits (s.env l) s.time.sfc p.unit { lane := (s.lane l).provisionally left, out := [] } onset live room within)
  · have uncut := cutIfLate_of_within (s.env l)
      (timedUnit (s.lane l).params s.time.rate (s.lane l).engine s.time.sfc p.unit)
      { lane := (s.lane l).provisionally left, out := [] } (by rw [timedUnit_base _ _ _ _ onset]; exact within)
    have joined := appendTimed_of_full (s.env l) s.time.sfc
      (timedUnit (s.lane l).params s.time.rate (s.lane l).engine s.time.sfc p.unit)
      { lane := (s.lane l).provisionally left, out := [] } queue full
    exact exec_correctionWindow s running list due alone
      (timeUnit_of_joined (s.env l) s.time.sfc { lane := (s.lane l).provisionally left, out := [] } live
        ((congrArg _ uncut).trans joined)) (Nat.succ_le_of_lt report)

/-! ## Where a unit stands, and its CUT mark (R80, R102) -/

section Marks

variable {ts : List TimedUnit} {v : TimedUnit} {i : Image} {x : LastTimed}

theorem TimedUnit.named_eq_false (other : v.ref ≠ x.ref) : v.named x.ref = false := decide_eq_false other

theorem TimedUnit.named_eq_true (same : v.ref = x.ref) : v.named x.ref = true := decide_eq_true same

/-- No unit of the list is found by another's `ref`, and none is marked. -/
theorem map_cutWhereNamed_of_noneIs (none : noneIs ts x) : ts.map (TimedUnit.cutWhereNamed x.ref) = ts :=
  (List.map_congr_left fun t ht =>
    (if_neg (by rw [TimedUnit.named_eq_false (none t ht)]; exact Bool.false_ne_true) : t.cutWhereNamed x.ref = t)).trans
    (List.map_id ts)

theorem find_named_of_noneIs (none : noneIs ts x) : ts.find? (fun t => t.named x.ref) = .none :=
  List.find?_eq_none.mpr fun t ht => by rw [TimedUnit.named_eq_false (none t ht)]; exact Bool.false_ne_true

theorem Image.holds_of_isNot (other : i.isNot x) : i.holds x.ref = false := by
  unfold Image.holds
  split
  · next t unit => exact TimedUnit.named_eq_false (other t unit)
  · rfl

theorem Image.holds_of_unit (unit : i.unit = some v) (same : v.ref = x.ref) : i.holds x.ref = true := by
  rw [Image.holds, unit]; exact TimedUnit.named_eq_true same

theorem Image.marked_of_unit (unit : i.unit = some v) : i.marked = i.withCut v := by rw [Image.marked, unit]; rfl

variable (ln : Lane)

/-- The CUT mark on the queue, and on the images that hold the unit. -/
theorem Lane.markCut_eq (ref : Nat) : ln.markCut ref =
    (let d := if ln.display.nextReady ∧ ln.display.next.holds ref then { ln.display with next := ln.display.next.marked }
       else ln.display
     { ln with
       engine := { ln.engine with queue := ln.engine.queue.map (TimedUnit.cutWhereNamed ref) }
       display := if d.air.holds ref then d.changeAir d.air.marked else d }) := rfl

@[simp] theorem Lane.markCut_queue_length (ref : Nat) : (ln.markCut ref).engine.queue.length = ln.engine.queue.length :=
  List.length_map _

/-- The ready next image does not hold the unit that the record names. -/
theorem DisplaySet.nextHolds_of_not {d : DisplaySet} (other : d.nextReady = true → d.next.isNot x) :
    ¬ (d.nextReady = true ∧ d.next.holds x.ref = true) := fun ⟨ready, holds⟩ =>
  Bool.false_ne_true ((Image.holds_of_isNot (other ready)).symm.trans holds)

/-- Neither does the air image. -/
theorem Image.holds_ne_of_isNot (other : i.isNot x) : ¬ i.holds x.ref = true := by
  rw [Image.holds_of_isNot other]; exact Bool.false_ne_true

/-- A unit of the record that stands at one place of a lane, and the lane with its CUT mark set there (R80, R102). -/
structure Lane.StandsAs (x : LastTimed) (v : TimedUnit) (cut : Lane) : Prop where
  standing : ln.standing x.ref = some v
  marks : ln.markCut x.ref = cut

theorem Lane.standsAs_of_queue {before after : List TimedUnit} (queue : ln.engine.queue = before ++ v :: after)
    (same : v.ref = x.ref) (others : noneIs (before ++ after) x)
    (notNext : ln.display.nextReady = true → ln.display.next.isNot x) (notAir : ln.display.air.isNot x) :
    ln.StandsAs x v { ln with engine := { ln.engine with queue := before ++ v.withCut :: after } } := by
  have beforeNot : noneIs before x := fun t ht => others t (List.mem_append_left _ ht)
  have afterNot : noneIs after x := fun t ht => others t (List.mem_append_right _ ht)
  have marked : v.cutWhereNamed x.ref = v.withCut := if_pos (TimedUnit.named_eq_true same)
  refine ⟨?_, ?_⟩
  · rw [Lane.standing, queue, List.find?_append, find_named_of_noneIs beforeNot,
      List.find?_cons, TimedUnit.named_eq_true same]
    rfl
  · rw [Lane.markCut_eq, if_neg (DisplaySet.nextHolds_of_not notNext)]
    dsimp only
    rw [if_neg (Image.holds_ne_of_isNot notAir), queue, List.map_append, List.map_cons,
      map_cutWhereNamed_of_noneIs beforeNot, map_cutWhereNamed_of_noneIs afterNot, marked]

theorem Lane.standsAs_of_next (ready : ln.display.nextReady = true) (unit : ln.display.next.unit = some v)
    (same : v.ref = x.ref) (notQueue : noneIs ln.engine.queue x) (notAir : ln.display.air.isNot x) :
    ln.StandsAs x v { ln with display := { ln.display with next := ln.display.next.withCut v } } := by
  have holds : ln.display.nextReady = true ∧ ln.display.next.holds x.ref = true :=
    ⟨ready, Image.holds_of_unit unit same⟩
  refine ⟨?_, ?_⟩
  · rw [Lane.standing, find_named_of_noneIs notQueue]
    exact (if_pos holds).trans unit
  · rw [Lane.markCut_eq, if_pos holds]
    dsimp only
    rw [if_neg (Image.holds_ne_of_isNot notAir), map_cutWhereNamed_of_noneIs notQueue, Image.marked_of_unit unit]

theorem Lane.standsAs_of_air (unit : ln.display.air.unit = some v) (same : v.ref = x.ref)
    (notQueue : noneIs ln.engine.queue x) (notNext : ln.display.nextReady = true → ln.display.next.isNot x) :
    ln.StandsAs x v { ln with display := ln.display.airCut v } := by
  have holds := Image.holds_of_unit unit same
  have notHeld := DisplaySet.nextHolds_of_not notNext
  refine ⟨?_, ?_⟩
  · rw [Lane.standing, find_named_of_noneIs notQueue]
    exact (if_neg notHeld).trans ((if_pos holds).trans unit)
  · rw [Lane.markCut_eq, if_neg notHeld]
    dsimp only
    rw [if_pos holds, map_cutWhereNamed_of_noneIs notQueue, Image.marked_of_unit unit]
    rfl

theorem Lane.standing_eq_none (notQueue : noneIs ln.engine.queue x)
    (notNext : ln.display.nextReady = true → ln.display.next.isNot x) (notAir : ln.display.air.isNot x) :
    ln.standing x.ref = none := by
  rw [Lane.standing, find_named_of_noneIs notQueue]
  exact (if_neg (DisplaySet.nextHolds_of_not notNext)).trans (if_neg (Image.holds_ne_of_isNot notAir))

end Marks

/-! ## The cut (R80) -/

section Cut

variable (env : LaneEnv) (r : LaneRun) {x : LastTimed} {v : TimedUnit}

theorem cutIfLate_of_late {t : TimedUnit} (record : r.lane.engine.record = some x)
    (late : r.lane.params.lamMax < x.release + x.minimum - t.base) :
    cutIfLate env t r = cutNamed env x.ref (x.release + x.minimum - t.release) r := by
  rw [cutIfLate, record]
  exact if_pos late

/-- A unit that stands nowhere, or is cut already, is not cut (R80). -/
theorem cutNamed_of_uncut (ref value : Nat) (settled : ∀ v, r.lane.standing ref = some v → v.unit.cut = true) :
    cutNamed env ref value r = r := by
  unfold cutNamed
  split
  · rfl
  · next v standing => rw [if_pos (settled v standing)]

/-- The unit that stands is cut once, counted and reported (R80). -/
theorem cutNamed_of_standing {cut : Lane} (value : Nat) (stands : r.lane.StandsAs x v cut) (clear : ¬ v.unit.cut = true) :
    cutNamed env x.ref value r = LaneRun.emit { r with lane := cut.countingCut } env .unitCut v.unit.writer (some value) := by
  obtain ⟨standing, rfl⟩ := stands
  rw [cutNamed, standing]
  exact if_neg clear

end Cut

section Late

variable {s : State} {l : LaneId} {p : Provisional} {left : List Provisional} {x : LastTimed} {on : Int} {w : WriterId}
  (running : (s.lane l).state = .running) (list : (s.lane l).builder.provisional = p :: left)
  (due : p.windowEnd ≤ s.time.sfc) (alone : ∀ q ∈ left.head?, s.time.sfc < q.windowEnd) (live : p.unit.origin = .live w)
  (record : (s.lane l).engine.record = some x) (room : (s.lane l).engine.queue.length < 32) {u : TimedUnit}
  (timed : u = timedUnit (s.lane l).params s.time.rate (s.lane l).engine s.time.sfc p.unit)
  (late : (s.lane l).params.lamMax < x.release + x.minimum - u.base)
include running list due alone live record room timed late

/-- A late unit whose predecessor stands nowhere, or is cut already, joins the queue (R80, R81). -/
theorem exec_correctionWindow_of_uncut (settled : ∀ v, (s.lane l).standing x.ref = some v → v.unit.cut = true) :
    exec (.correctionWindowExpiry l) s = .next (s.setLane l (((s.lane l).provisionally left).queueing u).composed) := by
  subst timed
  have uncut := cutIfLate_of_late (s.env l) { lane := (s.lane l).provisionally left, out := [] } record late
  rw [cutNamed_of_uncut (s.env l) _ _ _ settled] at uncut
  exact exec_correctionWindow_of_quiet s running list due alone
    (timeUnit_of_joined (s.env l) s.time.sfc { lane := (s.lane l).provisionally left, out := [] } live
      ((congrArg _ uncut).trans (appendTimed_of_room (s.env l) s.time.sfc _ _ room)))

/-- A late unit cuts its predecessor, where that stands with its mark clear, and joins the queue (R80, R81). -/
theorem exec_correctionWindow_of_cut {v : TimedUnit} {cut : Lane}
    (stands : ((s.lane l).provisionally left).StandsAs x v cut) (clear : ¬ v.unit.cut = true) (report : s.canReport) :
    exec (.correctionWindowExpiry l) s = .next { s.setLane l (cut.countingCut.queueing u).composed with
      reports := s.reports ++ [s.note .unitCut (some l) v.unit.writer (some (x.release + x.minimum - u.release))] } := by
  subst timed
  have cuts := cutIfLate_of_late (s.env l) { lane := (s.lane l).provisionally left, out := [] } record late
  rw [cutNamed_of_standing (s.env l) _ _ stands clear] at cuts
  have place : cut.countingCut.engine.queue.length < 32 := by
    obtain ⟨-, rfl⟩ := stands
    exact (Lane.markCut_queue_length _ _).trans_lt room
  exact exec_correctionWindow s running list due alone
    (timeUnit_of_joined (s.env l) s.time.sfc { lane := (s.lane l).provisionally left, out := [] } live
      ((congrArg _ cuts).trans (appendTimed_of_room (s.env l) s.time.sfc _ _ place))) (Nat.succ_le_of_lt report)

end Late

/-- A unit later than Λmax is released Λmax behind its base frame, where the one before it is not (R79). -/
theorem releaseFrame_of_late (p : Params) (x : LastTimed) (base : Nat) {late : Nat} (above : p.lamMax < late) :
    releaseFrame p (some x) base late = max (base + p.lamMax) (x.release + 1) := by
  rw [releaseFrame, Nat.min_eq_right above.le]

/-- Settles O23: the unit before the late one is found where it stands, and its mark set there once. -/
theorem lateUnitCutsThePrevious : Obligations.LateUnitCutsThePrevious := by
  unfold Obligations.LateUnitCutsThePrevious
  intro s l p left x on w b running list due alone onset live record room report base late
  have isBase : baseFrame (s.lane l).params on s.time.sfc = b := by
    have := baseFrame_eq (s.lane l).params on s.time.sfc
    omega
  generalize timed : timedUnit (s.lane l).params s.time.rate (s.lane l).engine s.time.sfc p.unit = u
  have based : u.base = b := by rw [← timed, timedUnit_base _ _ _ _ onset, isBase]
  have isLate : (s.lane l).params.lamMax < x.release + x.minimum - u.base := based ▸ late
  have uncut := exec_correctionWindow_of_uncut running list due alone live record room timed.symm isLate
  have cuts (v : TimedUnit) (cut : Lane) (stands : ((s.lane l).provisionally left).StandsAs x v cut) :
      if v.unit.cut = true then
        exec (.correctionWindowExpiry l) s = .next (s.setLane l (((s.lane l).provisionally left).queueing u).composed)
      else exec (.correctionWindowExpiry l) s = .next { s.setLane l (cut.countingCut.queueing u).composed with
        reports := s.reports ++ [s.note .unitCut (some l) v.unit.writer (some (x.release + x.minimum - u.release))] } := by
    split
    · next already =>
      exact uncut fun _ standing => Option.some.inj (stands.standing.symm.trans standing) ▸ already
    · next clear =>
      exact exec_correctionWindow_of_cut running list due alone live record room timed.symm isLate stands clear report
  refine ⟨u, ?_, ?_, ?_, ?_, ?_, ?_⟩
  · rw [← timed, ← record]; exact timedUnit_timedAfter _ _ _ _ _ onset
  · rw [← timed, timedUnit, onset, record]
    dsimp only [Option.getD_some]
    rw [isBase]
    exact releaseFrame_of_late _ x b late
  · exact fun before after v queue same others notNext notAir => cuts v _
      (Lane.standsAs_of_queue _ queue same others notNext notAir)
  · exact fun v ready unit same notQueue notAir => cuts v _ (Lane.standsAs_of_next _ ready unit same notQueue notAir)
  · exact fun v unit same notQueue notNext => cuts v _ (Lane.standsAs_of_air _ unit same notQueue notNext)
  · exact fun notQueue notNext notAir => uncut fun v standing =>
      absurd ((Lane.standing_eq_none _ notQueue notNext notAir).symm.trans standing) (Option.some_ne_none v).symm

end Sys2Proof.Machine
end

section
/-! PROOF. What the text of a segment reads as, and what its units are laid out to: the reader of the model against the items
of Safety, and the layout of the model against Safety's (R141, R158). -/

namespace Sys2Proof.Machine

/-! ## The text of a segment (R141) -/

/-- A run read from memory, by its addresses. -/
theorem Memory.readRun_eq_map (m : Memory) (a n : Nat) : m.readRun a n = (List.range n).map fun i => m.read (a + i) := by
  induction n generalizing a with
  | zero => rfl
  | succ n ih =>
    rw [Memory.readRun, ih, List.range_succ_eq_map, List.map_cons, List.map_map]
    exact congrArg _ (List.map_congr_left fun i _ => congrArg m.read (Nat.add_right_comm a 1 i))

theorem Store.segmentText_eq (x : Store) (g : Segment) : x.segmentText g = x.textOfSegment g := by
  unfold Store.segmentText Segment.pages Store.textOfSegment
  rw [List.flatMap_map]
  refine congrArg (List.flatMap · (List.range g.count)) (funext fun i => ?_)
  rw [Store.pageChars, Memory.readRun_eq_map]
  rfl

/-! ## The pieces of a word (R158) -/

/-- The piece of a word that begins at its 24 · i-th character. -/
def pieceAt (t : Text) (i : Nat) : CapWord :=
  { text := ((t.drop (24 * i)).take 24).map substitute, attach := decide (i ≠ 0) }

theorem scriptPieces_eq (t : Text) : scriptPieces t = (List.range ((t.length + 23) / 24)).map (pieceAt t) :=
  List.map_congr_left fun i _ => by rw [pieceAt, map_substitute]

/-- A character that is read later changes no piece that is full. -/
theorem pieceAt_append (t : Text) (c : Byte) {i : Nat} (full : 24 * i + 24 ≤ t.length) :
    pieceAt (t ++ [c]) i = pieceAt t i := by
  have rest : 24 ≤ (t.drop (24 * i)).length := by rw [List.length_drop]; omega
  rw [pieceAt, pieceAt, List.drop_append_of_le_length (by omega), List.take_append_of_le_length rest]

/-- The piece that is full as the text ends. -/
theorem pieceAt_last (t : Text) {i : Nat} (ends : t.length ≤ 24 * i + 24) :
    pieceAt t i = { text := (t.drop (24 * i)).map substitute, attach := decide (i ≠ 0) } := by
  rw [pieceAt, List.take_of_length_le (by rw [List.length_drop]; omega)]

/-- The reader between words, with these tokens read. -/
def ScriptReader.between (out : List ScriptToken) : ScriptReader := { piece := [], attach := false, code := false, out := out }

/-- The reader within a word of which these characters are read: the last piece is not ended yet. -/
def ScriptReader.within (out : List ScriptToken) (t : Text) : ScriptReader :=
  { piece := (t.drop (24 * ((t.length - 1) / 24))).map substitute
    attach := decide ((t.length - 1) / 24 ≠ 0)
    code := false
    out := out ++ (List.range ((t.length - 1) / 24)).map fun i => .word (pieceAt t i) }

section Words

variable (out : List ScriptToken) (t : Text)

theorem ScriptReader.within_letter (c : Byte) :
    (ScriptReader.within out t).letter c = ScriptReader.within out (t ++ [c]) := by
  have length : (t ++ [c]).length - 1 = t.length := by rw [List.length_append, List.length_singleton, Nat.add_sub_cancel]
  have pieces (n : Nat) (full : 24 * n ≤ t.length) : (List.range n).map (fun i => ScriptToken.word (pieceAt (t ++ [c]) i))
      = (List.range n).map fun i => .word (pieceAt t i) :=
    List.map_congr_left fun i hi => by rw [pieceAt_append t c (by have := List.mem_range.mp hi; omega)]
  unfold ScriptReader.letter ScriptReader.within
  simp only [length, List.length_map, List.length_drop, Config.wordMax]
  split
  · next room =>
    have same : t.length / 24 = (t.length - 1) / 24 := by omega
    rw [same, pieces _ (by omega), List.drop_append_of_le_length (by omega), List.map_append]
    rfl
  · next full =>
    have next : t.length / 24 = (t.length - 1) / 24 + 1 := by omega
    have ends : (t ++ [c]).drop (24 * (t.length / 24)) = [c] := by
      rw [List.drop_append_of_le_length (by omega), List.drop_of_length_le (by omega)]; rfl
    rw [ends, pieces _ (by omega), next, List.range_succ, List.map_append, List.append_assoc,
      List.map_singleton (f := fun i => ScriptToken.word (pieceAt t i)), pieceAt_last t (by omega)]
    simp

theorem ScriptReader.foldl_letter : t.foldl ScriptReader.letter (.between out) = .within out t := by
  induction t using List.reverseRecOn with
  | nil => simp [ScriptReader.between, ScriptReader.within]
  | append_singleton t c ih => rw [List.foldl_append, ih, List.foldl_cons, List.foldl_nil, ScriptReader.within_letter]

/-- The end of a word ends its last piece. -/
theorem ScriptReader.within_endWord (some : t ≠ []) :
    (ScriptReader.within out t).endWord = .between (out ++ (scriptPieces t).map .word) := by
  have length : 0 < t.length := List.length_pos_iff.mpr some
  have piece : (t.drop (24 * ((t.length - 1) / 24))).map substitute ≠ [] := by
    rw [← List.length_pos_iff, List.length_map, List.length_drop]
    omega
  have count : (t.length + 23) / 24 = (t.length - 1) / 24 + 1 := by omega
  rw [scriptPieces_eq, count, List.range_succ, List.map_append, List.map_append, List.map_map, List.map_singleton,
    List.map_singleton, pieceAt_last t (by omega), ← List.append_assoc]
  exact if_neg piece

end Words

/-! ## The reader over items (R141) -/

/-- The reader after a 0x1E that begins no code is read as a character. -/
def ScriptReader.settled (r : ScriptReader) : ScriptReader := if r.code then { r with code := false }.letter 0x1E else r

section Reader

variable (r : ScriptReader) (c : Byte)

theorem ScriptReader.settled_of_plain (plain : r.code = false) : r.settled = r := by
  rw [ScriptReader.settled, plain]; rfl

theorem ScriptReader.letter_code : (r.letter c).code = r.code := by
  unfold ScriptReader.letter; split <;> rfl

theorem ScriptReader.settled_code : r.settled.code = false := by
  unfold ScriptReader.settled
  split
  · rw [ScriptReader.letter_code]
  · next plain => exact Bool.eq_false_iff.mpr plain

/-- A character that is no hexadecimal digit finds a pending 0x1E read as a character. -/
theorem ScriptReader.read_eq (other : hexIndex c = none) : r.read c = r.settled.plain c := by
  unfold ScriptReader.read ScriptReader.settled
  split
  · rw [other]
  · rfl

theorem ScriptReader.read_settled (other : hexIndex c = none) : r.settled.read c = r.read c := by
  rw [r.read_eq c other, r.settled.read_eq c other, r.settled.settled_of_plain r.settled_code]

theorem hexIndex_eq_none (other : isHexDigit c = false) : hexIndex c = none := by
  unfold isHexDigit at other
  obtain ⟨low, high⟩ := (Bool.or_eq_false_iff ..).mp other
  rw [hexIndex, if_neg (of_decide_eq_false low), if_neg (of_decide_eq_false high)]

/-- The digit of a speaker code names its index. -/
theorem hexIndex_digit {i : Nat} (low : i ≤ 15) : hexIndex (BitVec.ofNat 8 (if i < 10 then 0x30 + i else 0x37 + i)) = some i := by
  interval_cases i <;> rfl

theorem ScriptReader.read_letter (plain : r.code = false) (noCode : c ≠ 0x1E) (noSpace : c ≠ 0x20) (noBreak : c ≠ 0x0A) :
    r.read c = r.letter c := by
  rw [ScriptReader.read, plain]
  simp only [Bool.false_eq_true, if_false, ScriptReader.plain, noCode, noSpace, noBreak]

theorem ScriptReader.read_mark (plain : r.code = false) : r.read 0x1E = { r with code := true } := by
  rw [ScriptReader.read, plain]
  rfl

/-- A run of characters that holds no separator, no break and no code is read as so many characters. -/
theorem ScriptReader.foldl_read (t : Text) (chars : ∀ c ∈ t, c ≠ 0x20 ∧ c ≠ 0x0A) (noCode : holdsNoCode t = true)
    (r : ScriptReader) (plain : r.code = false) : (t.foldl ScriptReader.read r).settled = t.foldl ScriptReader.letter r := by
  induction t generalizing r with
  | nil => exact r.settled_of_plain plain
  | cons c t ih =>
    obtain ⟨⟨noSpace, noBreak⟩, rest⟩ := List.forall_mem_cons.mp chars
    have restNoCode : holdsNoCode t = true := by
      cases t with
      | nil => rfl
      | cons d t => exact ((Bool.and_eq_true_iff ..).mp noCode).2
    have lettered := ih rest restNoCode (r.letter c) (r.letter_code c ▸ plain)
    rw [List.foldl_cons, List.foldl_cons]
    by_cases mark : c = 0x1E
    · subst mark
      have pending : ({ r with code := true } : ScriptReader).settled = r.letter 0x1E := by
        rw [ScriptReader.settled, if_pos rfl]; rw [← plain]
      rw [r.read_mark plain, ← lettered]
      cases t with
      | nil => rw [List.foldl_nil, pending, List.foldl_nil, ScriptReader.settled_of_plain _ (r.letter_code _ ▸ plain)]
      | cons d t =>
        have other : hexIndex d = none := hexIndex_eq_none d (by simpa [holdsNoCode] using ((Bool.and_eq_true_iff ..).mp noCode).1)
        rw [List.foldl_cons, List.foldl_cons, ← pending, ScriptReader.read_settled _ d other]
    · rw [r.read_letter c plain mark noSpace noBreak]
      exact lettered

end Reader

/-- The tokens that an item is read as (R141, R158). -/
def ScriptItem.tokens : ScriptItem → List ScriptToken
  | .word t => (scriptPieces t).map .word
  | .space => []
  | .brk => [.brk]
  | .speaker i => [.speaker i]

/-- A proper word is not empty, and holds no separator, no break and no code. -/
theorem ScriptItem.proper_word {t : Text} (h : (ScriptItem.word t).proper = true) :
    t ≠ [] ∧ (∀ c ∈ t, c ≠ 0x20 ∧ c ≠ 0x0A) ∧ holdsNoCode t = true := by
  simpa [ScriptItem.proper, and_assoc] using h

/-- Where words do not meet, none follows a word, and the rest do not meet. -/
theorem wordsApart_cons {x : ScriptItem} {xs : List ScriptItem} (h : wordsApart (x :: xs) = true) :
    wordsApart xs = true ∧ ∀ t, x = .word t → ∀ u, xs.head? ≠ some (.word u) := by
  cases x with
  | word t =>
    cases xs with
    | nil => exact ⟨rfl, fun _ _ _ => (Option.some_ne_none _).symm⟩
    | cons y ys =>
      cases y with
      | word u => exact absurd h Bool.false_ne_true
      | space | brk | speaker i => exact ⟨h, fun _ _ _ => by simp⟩
  | space | brk | speaker i => exact ⟨h, fun _ => nofun⟩

/-- The reader is at the end of an item: the word being read, if any, ends here, and then these tokens are read. -/
def ScriptReader.EndsAt (r : ScriptReader) (out : List ScriptToken) : Prop := r.settled.endWord = .between out

section Items

variable (r : ScriptReader) (out : List ScriptToken) (h : r.EndsAt out)

theorem ScriptReader.between_endsAt : (ScriptReader.between out).EndsAt out := rfl

include h

theorem ScriptReader.read_speaker {i : Nat} (low : i ≤ 15) :
    (ScriptItem.speaker i).chars.foldl ScriptReader.read r = .between (out ++ [.speaker i]) := by
  have marked : r.read 0x1E = { r.settled with code := true } := r.read_eq 0x1E rfl
  have plain : ({ r.settled with code := false } : ScriptReader) = r.settled := by rw [← r.settled_code]
  rw [ScriptItem.chars, List.foldl_cons, marked, List.foldl_cons, List.foldl_nil, ScriptReader.read, if_pos rfl,
    hexIndex_digit low]
  dsimp only
  rw [plain, h]
  rfl

/-- A separator, a break or a speaker code ends the word being read, if any. -/
theorem ScriptReader.read_other {x : ScriptItem} (proper : x.proper = true) (other : ∀ t, x ≠ .word t) :
    x.chars.foldl ScriptReader.read r = .between (out ++ x.tokens) := by
  cases x with
  | word t => exact absurd rfl (other t)
  | space => exact (r.read_eq 0x20 rfl).trans (h.trans (congrArg _ (List.append_nil out).symm))
  | brk =>
    have ended : r.read 0x0A = { r.settled.endWord with out := r.settled.endWord.out ++ [.brk] } := r.read_eq 0x0A rfl
    rw [h] at ended
    exact ended
  | speaker i => exact r.read_speaker out h (of_decide_eq_true proper)

end Items

/-- A word that is read between words, ends with its pieces read. -/
theorem ScriptReader.read_word (out : List ScriptToken) {t : Text} (proper : (ScriptItem.word t).proper = true) :
    (t.foldl ScriptReader.read (.between out)).EndsAt (out ++ (ScriptItem.word t).tokens) := by
  obtain ⟨some, chars, noCode⟩ := ScriptItem.proper_word proper
  rw [ScriptReader.EndsAt, ScriptReader.foldl_read t chars noCode _ rfl, ScriptReader.foldl_letter,
    ScriptReader.within_endWord out t some]
  rfl

/-- Items are read as their tokens, from between words on or from the end of a word where no word follows. -/
theorem ScriptReader.read_items (items : List ScriptItem) (proper : ∀ x ∈ items, x.proper = true)
    (apart : wordsApart items = true) (r : ScriptReader) (out : List ScriptToken) (h : r.EndsAt out)
    (first : r = .between out ∨ ∀ t, items.head? ≠ some (.word t)) :
    ((items.flatMap ScriptItem.chars).foldl ScriptReader.read r).EndsAt (out ++ items.flatMap ScriptItem.tokens) := by
  induction items generalizing r out with
  | nil => exact (List.append_nil out).symm ▸ h
  | cons x xs ih =>
    obtain ⟨this, rest⟩ := List.forall_mem_cons.mp proper
    obtain ⟨restApart, follows⟩ := wordsApart_cons apart
    rw [List.flatMap_cons, List.flatMap_cons, List.foldl_append, ← List.append_assoc]
    cases x with
    | word t =>
      obtain rfl | none := first
      · exact ih rest restApart _ _ (ScriptReader.read_word out this) (.inr (follows t rfl))
      · exact absurd rfl (none t)
    | space | brk | speaker i =>
      rw [r.read_other out h this nofun]
      exact ih rest restApart _ _ (ScriptReader.between_endsAt _) (.inl rfl)

/-- R141: a text that items make reads as their tokens. -/
theorem readScript_items (items : List ScriptItem) (proper : ∀ x ∈ items, x.proper = true)
    (apart : wordsApart items = true) : readScript (items.flatMap ScriptItem.chars) = items.flatMap ScriptItem.tokens :=
  congrArg ScriptReader.out (ScriptReader.read_items items proper apart (.between []) [] (ScriptReader.between_endsAt [])
    (.inl rfl))

/-! ## The layout of the tokens (R52, R53, R158) -/

/-- A layout of the model in the words of Safety. -/
def ScriptLayout.laying (y : ScriptLayout) : Laying :=
  { current := y.current, closed := y.done, style := y.style, labelDue := y.pendingLabel, limited := y.limited }

theorem ScriptLayout.laying_close (y : ScriptLayout) (cause : CloseCause) :
    (y.close cause).laying = y.laying.close cause := by
  unfold ScriptLayout.close Laying.close ScriptLayout.laying
  cases current : y.current with
  | none => simp [current]
  | some u => rfl

section Layout

variable (s : State) (l : LaneId) (segment : Nat) (y : ScriptLayout)

/-- A unit is created as Safety begins one (R53). -/
theorem ScriptLayout.laying_create (w : CapWord) : (y.create (s.env l) (s.lane l).params segment w).laying =
    { y.laying with
      current := some { lane := l, lines := ((s.lane l).params.begun y.pendingLabel (s.styleEntry y.style).label w.text).1
                        words := [w], style := (s.styleEntry y.style).style
                        label := ((s.lane l).params.begun y.pendingLabel (s.styleEntry y.style).label w.text).2
                        origin := .script segment, firstArrival := none, onset := none, closeFrame := none
                        closeCause := none, cut := false }
      labelDue := false } := by
  rw [ScriptLayout.create, newUnit, firstLines_eq]
  rfl

theorem ScriptLayout.laying_word (w : CapWord) :
    (y.lay (s.env l) (s.lane l).params segment (.word w)).laying = y.laying.word s l segment w := by
  unfold Laying.word ScriptLayout.lay
  dsimp only
  have current : y.laying.current = y.current := rfl
  rw [current]
  cases y.current with
  | none => exact y.laying_create s l segment w
  | some u =>
    dsimp only
    rw [placeWord_eq]
    cases (s.lane l).params.placed u.lines w with
    | some lines => rfl
    | none =>
      rw [← ScriptLayout.laying_close]
      exact (y.close .full).laying_create s l segment w

theorem ScriptLayout.laying_words (ws : List CapWord) :
    ((ws.map ScriptToken.word).foldl (ScriptLayout.lay (s.env l) (s.lane l).params segment) y).laying
      = ws.foldl (Laying.word s l segment) y.laying := by
  induction ws generalizing y with
  | nil => rfl
  | cons w ws ih => rw [List.map_cons, List.foldl_cons, ih, ScriptLayout.laying_word, List.foldl_cons]

theorem ScriptLayout.laying_speaker (i : Nat) :
    (y.lay (s.env l) (s.lane l).params segment (.speaker i)).laying = y.laying.item s l segment (.speaker i) := by
  have closed := y.laying_close .speaker
  have limited : (y.close .speaker).limited = y.limited := congrArg Laying.limited closed
  unfold ScriptLayout.lay Laying.item
  rw [← closed]
  dsimp only
  by_cases low : i < s.styleLimit
  · rw [if_pos (by exact low), if_pos low, if_pos low, ← show _ = y.laying.limited from limited]
    rfl
  · rw [if_neg (by exact low), if_neg low, if_neg low, ← show _ = y.laying.limited from limited]
    rfl

theorem ScriptLayout.laying_item (x : ScriptItem) :
    (x.tokens.foldl (ScriptLayout.lay (s.env l) (s.lane l).params segment) y).laying = y.laying.item s l segment x := by
  cases x with
  | word t => exact y.laying_words s l segment (scriptPieces t)
  | space => rfl
  | brk => exact y.laying_close .brk
  | speaker i => exact y.laying_speaker s l segment i

theorem ScriptLayout.laying_items (items : List ScriptItem) :
    ((items.flatMap ScriptItem.tokens).foldl (ScriptLayout.lay (s.env l) (s.lane l).params segment) y).laying
      = items.foldl (Laying.item s l segment) y.laying := by
  induction items generalizing y with
  | nil => rfl
  | cons x xs ih => rw [List.flatMap_cons, List.foldl_append, ih, ScriptLayout.laying_item, List.foldl_cons]

/-- R158: the layout of a text that items make is Safety's layout of the items. -/
theorem layoutScript_items (items : List ScriptItem) (proper : ∀ x ∈ items, x.proper = true)
    (apart : wordsApart items = true) :
    layoutScript (s.env l) (s.lane l).params segment (items.flatMap ScriptItem.chars)
      = ((s.layingOf l segment items).closed, (s.layingOf l segment items).limited) := by
  unfold layoutScript State.layingOf
  rw [readScript_items items proper apart]
  have laid := ScriptLayout.laying_items s l segment
    { current := none, done := [], style := 0, pendingLabel := false, limited := [] } items
  have closed := ScriptLayout.laying_close ((items.flatMap ScriptItem.tokens).foldl
    (ScriptLayout.lay (s.env l) (s.lane l).params segment)
    { current := none, done := [], style := 0, pendingLabel := false, limited := [] }) .brk
  rw [laid] at closed
  exact Prod.ext (congrArg Laying.closed closed) (congrArg Laying.limited closed)

end Layout

/-! ## PREPARE (R150, R151, R159) -/

section Prepare

variable (s : State) (l : LaneId)

/-- No check of a PREPARE fails (R150). -/
theorem prepareRefusal_eq_none {id : Nat} {g : Segment} (defined : s.store.segment id = some g)
    (valid : ∀ i, i < g.count → s.store.page (g.first + i) = .valid) (idle : ∀ h, (s.lane l).deck.state ≠ .playing h)
    (free : s.store.engine = .idle) : prepareRefusal s id l = none := by
  have pages (f : PageState → Bool) (good : f .valid = false) : ¬ (g.pages.any fun p => f (s.store.page p)) = true := by
    simp only [List.any_eq_true, Segment.pages, List.mem_map, List.mem_range, not_exists, not_and]
    rintro p ⟨i, low, rfl⟩ bad
    rw [valid i low, good] at bad
    exact Bool.false_ne_true bad
  have notPlaying : ¬ (s.lane l).deck.isPlaying = true := by
    unfold Deck.isPlaying
    split
    · next h playing => exact absurd playing (idle h)
    · exact Bool.false_ne_true
  rw [prepareRefusal, defined]
  dsimp only
  rw [if_neg (pages (fun x => decide (x = .writing)) rfl), if_neg (pages (fun x => decide (x ≠ .valid)) rfl),
    if_neg notPlaying, if_neg (not_not_intro free)]

theorem prepareRequest_of_accepted {id : Byte} (low : id.toNat ≤ 63) (accepted : prepareRefusal s id.toNat l = none) :
    prepareRequest [id, BitVec.ofNat 8 (laneNumber l)] s
      = (((s.withStore { s.store with engine := .prepare id.toNat l }).onLane l (startPreparing id.toNat)), .ack none) := by
  have lane : laneOf (byteAt [id, BitVec.ofNat 8 (laneNumber l)] 1) = some l := by cases l <;> rfl
  have number : byteAt [id, BitVec.ofNat 8 (laneNumber l)] 0 = id.toNat := rfl
  simp only [prepareRequest, lane, number, if_neg (Nat.not_lt.mpr low), accepted]

/-- The completion of a PREPARE with no take recorded, where its reports find room (R158, R159). -/
theorem exec_prepareCompletion {id : Nat} (engine : s.store.engine = .prepare id l)
    (untaken : (s.lane l).deck.pendingTake = none) (room : s.reports.length + (s.prepareNotes l id).length ≤ 32) :
    exec .prepareCompletion s = .next { s.setLane l (s.laidLane l id) with
      store := { s.store with engine := .idle }, reports := s.reports ++ s.prepareNotes l id } := by
  have same : s.untaken l = s := by
    rw [State.untaken, ← untaken, s.setLane_lane]
  have completed := s.completePrepare_untaken l id engine
  rw [same] at completed
  exact congrArg _ (completed.trans (State.queueReports_of_room
    ((s.withStore { s.store with engine := .idle }).setLane l (s.laidLane l id)) _ room))

/-- The reports of a layout: STORE_DONE, the style limits, and the truncation if any. -/
theorem State.prepareNotes_length (id : Nat) :
    (s.prepareNotes l id).length ≤ (s.layout l id).2.length + 2 := by
  unfold State.prepareNotes layoutNotes
  rw [List.length_cons, List.length_append, List.length_map]
  split <;> simp

end Prepare

/-- Settles O45: the deck's units are those of Safety's layout, since the reader and the layout agree with it. -/
theorem prepareFillsTheDeck : Obligations.PrepareFillsTheDeck := by
  unfold Obligations.PrepareFillsTheDeck
  refine ⟨fun s l id g room low defined valid idle free => ?_,
    fun s l id g items engine defined text proper apart _ untaken room => ?_⟩
  · have accepted := prepareRequest_of_accepted s.heard l low (prepareRefusal_eq_none s.heard l defined valid idle free)
    rw [State.onLane_of_quiet _ l (startPreparing id.toNat) rfl] at accepted
    exact congrArg _ (requestRow_of_ack 0x2F _ _ s _ none room rfl accepted)
  · have laid : s.layout l id = ((s.layingOf l id items).closed, (s.layingOf l id items).limited) := by
      rw [State.layout, Store.preparedText, defined]
      dsimp only
      rw [Store.segmentText_eq, text, layoutScript_items s l id items proper apart]
    have length := s.prepareNotes_length l id
    rw [laid] at length
    dsimp only at length
    have notes : s.reports ++ s.prepareNotes l id = s.reports ++ [s.note .storeDone (some l) none (some (3 * 16777216 + id))]
        ++ (s.layingOf l id items).limited.map (fun i => s.note .styleLimit (some l) none (some i))
        ++ if 48 < (s.layingOf l id items).closed.length then
            [s.note .deckTruncated (some l) none (some ((s.layingOf l id items).closed.length - 48))]
          else [] := by
      rw [State.prepareNotes, layoutNotes, laid, List.append_assoc, List.append_assoc]
      rfl
    rw [exec_prepareCompletion s l engine untaken (by omega), notes, State.laidLane, laid]
    rfl

end Sys2Proof.Machine
end

section
/-! PROOF. The retime at THAW and RESUME and at automation withdraw (R126 to R128, R136): O47 and O54. -/

namespace Sys2Proof.Machine

/-! ## The retime (R127, R128) -/

/-- R128: a retime queues its one report, if any, and leaves the lane that Safety states. -/
theorem retime_run (s : State) (l : LaneId) (ln : Lane) (h : ln.feedsNothing) :
    retime (s.env l) { lane := ln, out := [] }
      = { lane := ln.retimedAt s.time.sfc, out := s.staleReports l (ln.discarded s.time.sfc) } :=
  retime_eq (s.env l) { lane := ln, out := [] } h

theorem State.staleReports_length (s : State) (l : LaneId) (k : Nat) : (s.staleReports l k).length ≤ 1 := by
  unfold State.staleReports
  split <;> simp

/-! ## THAW and RESUME (R123, R124, R126) -/

section Flags

variable (env : LaneEnv) (r : LaneRun)

/-- The last flag is cleared by a THAW. -/
theorem laneThaw_of_last (frozen : r.lane.frozen = true) (free : r.lane.held = false) :
    laneThaw env r = retime env (r.edit fun ln => { ln with frozen := false }) := by
  simp only [laneThaw, LaneRun.edit_lane, frozen, free, if_true, Bool.false_eq_true, if_false]

/-- A THAW that leaves HELD set lets composition go on. -/
theorem laneThaw_of_held (frozen : r.lane.frozen = true) (held : r.lane.held = true) :
    laneThaw env r = composeAndFeed env (r.edit fun ln => { ln with frozen := false }) := by
  simp only [laneThaw, LaneRun.edit_lane, frozen, held, if_true]

theorem laneThaw_of_free (free : r.lane.frozen = false) : laneThaw env r = r := by
  simp only [laneThaw, free, Bool.false_eq_true, if_false]

/-- The last flag is cleared by a RESUME. -/
theorem laneResume_of_last (held : r.lane.held = true) (free : r.lane.frozen = false) :
    laneResume env r = retime env (r.edit fun ln => { ln with held := false }) := by
  simp only [laneResume, LaneRun.edit_lane, held, free, if_true, Bool.false_eq_true, if_false]

/-- A RESUME that leaves FROZEN set clears HELD alone. -/
theorem laneResume_of_frozen (held : r.lane.held = true) (frozen : r.lane.frozen = true) :
    laneResume env r = r.edit fun ln => { ln with held := false } := by
  simp only [laneResume, LaneRun.edit_lane, held, frozen, if_true]

theorem laneResume_of_free (free : r.lane.held = false) : laneResume env r = r := by
  simp only [laneResume, free, Bool.false_eq_true, if_false]

end Flags

section Cues

variable {s : State} {l : LaneId} {broadcast : Bool} {mask tag segment a b c : Byte}
  (only : s.onlyAddresses mask l) (running : (s.lane l).state = .running) (room : broadcast = true ∨ s.canAnswer)
  {e : Byte × CueKind × (Bool → List Byte → Instr)} (mem : e ∈ cueTable) (good : e.2.1 = .take → segment.toNat ≤ 63)
  (own : e.2.1 ≠ .join ∧ e.2.1 ≠ .split)

theorem mem_cueTable_thaw : (2, CueKind.thaw, Instr.thaw) ∈ cueTable := by simp [cueTable]
theorem mem_cueTable_resume : (5, CueKind.resume, Instr.resume) ∈ cueTable := by simp [cueTable]

include only running room mem good own

/-- A cue that retimes the lane, now that it is this. -/
theorem exec_cue_of_retime {ln : Lane} (feeds : ln.feedsNothing) (report : s.canReport)
    (run : laneCue (s.follows l) (immediate e.2.1 mask tag segment) (s.env l) { lane := s.lane l, out := [] }
      = retime (s.env l) { lane := ln, out := [] }) :
    exec (e.2.2 broadcast (immediateCue mask tag segment a b c)) s = .next ((s.cueHeard broadcast).retimed l ln) := by
  have one := s.staleReports_length l (ln.discarded s.time.sfc)
  have free : s.reports.length < 32 := report
  rw [exec_cue_of_run only running room mem good own (run.trans (retime_run s l ln feeds)) (by omega)]
  cases broadcast <;> rfl

/-- A cue by which that lane's blocks do nothing. -/
theorem exec_cue_of_idle (run : laneCue (s.follows l) (immediate e.2.1 mask tag segment) (s.env l)
      { lane := s.lane l, out := [] } = { lane := s.lane l, out := [] }) :
    exec (e.2.2 broadcast (immediateCue mask tag segment a b c)) s = .next (s.cueHeard broadcast) := by
  rw [exec_cue_of_quiet only running room mem good own run, ← s.cueHeard_lane broadcast l, State.setLane_lane]

end Cues

/-- Settles O47: the flags that are set decide what each of the two cues does on the lane. -/
theorem thawAndResumeRetime : Obligations.ThawAndResumeRetime := by
  unfold Obligations.ThawAndResumeRetime
  intro s l broadcast mask tag segment a b c only running room feeds
  refine ⟨fun frozen free report => ?_, fun held free report => ?_, fun frozen held => ⟨?_, ?_⟩, fun free => ?_,
    fun free => ?_⟩
  · exact exec_cue_of_retime only running room mem_cueTable_thaw nofun ⟨nofun, nofun⟩ feeds report
      (laneThaw_of_last (s.env l) { lane := s.lane l, out := [] } frozen free)
  · exact exec_cue_of_retime only running room mem_cueTable_resume nofun ⟨nofun, nofun⟩ feeds report
      (laneResume_of_last (s.env l) { lane := s.lane l, out := [] } held free)
  · exact exec_cue_of_quiet only running room mem_cueTable_thaw nofun ⟨nofun, nofun⟩
      ((laneThaw_of_held (s.env l) { lane := s.lane l, out := [] } frozen held).trans (composeAndFeed_eq _ _ feeds))
  · exact exec_cue_of_quiet only running room mem_cueTable_resume nofun ⟨nofun, nofun⟩
      (laneResume_of_frozen (s.env l) { lane := s.lane l, out := [] } held frozen)
  · exact exec_cue_of_idle only running room mem_cueTable_thaw nofun ⟨nofun, nofun⟩
      (laneThaw_of_free (s.env l) { lane := s.lane l, out := [] } free)
  · exact exec_cue_of_idle only running room mem_cueTable_resume nofun ⟨nofun, nofun⟩
      (laneResume_of_free (s.env l) { lane := s.lane l, out := [] } free)

/-! ## Automation withdraw (R136) -/

/-- The part after the blocks of both lanes acted: the lanes are these, and these reports were queued. -/
def State.acted (s : State) (after : LaneId → Lane) (rs : List Report) : State :=
  { s with lanes := { lane0 := after .lane0, lane1 := after .lane1 }, reports := s.reports ++ rs }

@[simp] theorem State.acted_lane (s : State) (after : LaneId → Lane) (rs : List Report) (l : LaneId) :
    (s.acted after rs).lane l = after l := by
  cases l <;> rfl

@[simp] theorem State.acted_reports (s : State) (after : LaneId → Lane) (rs : List Report) :
    (s.acted after rs).reports = s.reports ++ rs := rfl

@[simp] theorem State.acted_acted (s : State) (f g : LaneId → Lane) (rs qs : List Report) :
    (s.acted f rs).acted g qs = s.acted g (rs ++ qs) := by
  simp only [State.acted, List.append_assoc]

/-- The reports that an act queues on both lanes, lane 0 first. -/
def onBothLanes (notes : LaneId → List Report) : List Report := ([.lane0, .lane1] : List LaneId).flatMap notes

theorem onBothLanes_eq (notes : LaneId → List Report) : onBothLanes notes = notes .lane0 ++ notes .lane1 := by
  simp only [onBothLanes, List.flatMap_cons, List.flatMap_nil, List.append_nil]

/-- An act that queues at most one report on a lane queues at most two. -/
theorem onBothLanes_length {notes : LaneId → List Report} (few : ∀ l, (notes l).length ≤ 1) :
    (onBothLanes notes).length ≤ 2 := by
  have first := few .lane0
  have second := few .lane1
  rw [onBothLanes_eq, List.length_append]
  omega

/-- The same act of both lanes' blocks, lane 0 first, with reports that find room. -/
theorem State.onLanes_of_run (s : State) {act : LaneEnv → LaneRun → LaneRun} {after : LaneId → Lane}
    {notes : LaneId → List Report}
    (run : ∀ l, act (s.env l) { lane := s.lane l, out := [] } = { lane := after l, out := notes l })
    (room : s.reports.length + (onBothLanes notes).length ≤ 32) :
    (s.onLane .lane0 act).onLane .lane1 act = s.acted after (onBothLanes notes) := by
  rw [onBothLanes_eq] at room ⊢
  rw [List.length_append] at room
  rw [s.onLane_of_run .lane0 (run .lane0) (by omega), State.acted, ← List.append_assoc]
  refine State.onLane_of_run { s.setLane .lane0 (after .lane0) with reports := s.reports ++ notes .lane0 } .lane1
    (run .lane1) ?_
  rw [List.length_append]
  omega

/-! ### The three acts of a withdraw on one lane -/

/-- The lane after a READY or PLAYING deck and the source are withdrawn. -/
def Lane.deckWithdrawn (ln : Lane) : Lane :=
  { ln with
    source := .live
    deck := match ln.deck.state with
      | .ready _ => ln.deck.without .empty
      | .playing _ => ln.deck.without .empty
      | _ => ln.deck }

/-- The lane with both flags clear. -/
def Lane.unflagged (ln : Lane) : Lane := { ln with frozen := false, held := false }

/-- The lane after its flags are withdrawn: retimed, where it is RUNNING with a flag set. -/
def Lane.flagsWithdrawn (ln : Lane) (now : Nat) : Lane :=
  if ln.retimesAtWithdraw then ln.unflagged.retimedAt now else ln

/-- The lane with no take recorded. -/
def Lane.untaken (ln : Lane) : Lane := { ln with deck := { ln.deck with pendingTake := none } }

theorem Lane.untaken_of_none {ln : Lane} (free : ln.deck.pendingTake = none) : ln.untaken = ln := by
  unfold Lane.untaken
  rw [← free]

/-- The number of units that a withdraw discards on the lane. -/
def Lane.discardedAtWithdraw (ln : Lane) (now : Nat) : Nat := if ln.retimesAtWithdraw then ln.discarded now else 0

/-- The report of a withdraw on a lane that discards units. -/
def State.withdrawStale (s : State) (l : LaneId) : List Report :=
  s.staleReports l ((s.lane l).discardedAtWithdraw s.time.sfc)

/-- The report of a withdraw on a lane that drops a take (R163). -/
def State.withdrawTake (s : State) (l : LaneId) : List Report :=
  ((s.lane l).deck.pendingTake.map fun take => s.note .takeAbandoned (some l) none (some take.tag)).toList

theorem State.withdrawTake_length (s : State) (l : LaneId) : (s.withdrawTake l).length ≤ 1 := by
  unfold State.withdrawTake
  cases (s.lane l).deck.pendingTake <;> simp

section Acts

variable (s : State) (l : LaneId) (ln : Lane) (now : Nat)

theorem withdrawDeck_run :
    withdrawDeck { lane := ln, out := [] } = { lane := ln.deckWithdrawn, out := [] } := rfl

/-- No deck plays once the decks are withdrawn. -/
theorem Lane.deckWithdrawn_feedsNothing : ln.deckWithdrawn.feedsNothing := by
  intro g playing
  unfold Lane.deckWithdrawn at playing
  cases state : ln.deck.state <;> simp [state, Deck.without] at playing

theorem withdrawFlags_run (h : ln.feedsNothing) : withdrawFlags (s.env l) { lane := ln, out := [] }
    = { lane := ln.flagsWithdrawn s.time.sfc, out := s.staleReports l (ln.discardedAtWithdraw s.time.sfc) } := by
  have steered : (ln.state = .running ∧ (ln.frozen = true ∨ ln.held = true)) ↔ ln.retimesAtWithdraw = true := by
    simp [Lane.retimesAtWithdraw]
  unfold withdrawFlags Lane.flagsWithdrawn Lane.discardedAtWithdraw
  simp only [steered]
  split
  · exact retime_run s l ln.unflagged h
  · rfl

theorem dropTake_run (same : ln.deck.pendingTake = (s.lane l).deck.pendingTake) :
    dropTake (s.env l) { lane := ln, out := [] } = { lane := ln.untaken, out := s.withdrawTake l } := by
  unfold State.withdrawTake
  rw [← same]
  cases take : ln.deck.pendingTake with
  | none => rw [dropTake_of_none (s.env l) { lane := ln, out := [] } take, Lane.untaken_of_none take]; rfl
  | some t => simp only [dropTake, take]; rfl

/-! ### The lane after a withdraw -/

/-- A retime does not look at the source or the deck. -/
theorem Lane.retimedAt_withDeck (x : Source) (d : Deck) :
    ({ ln with source := x, deck := d } : Lane).retimedAt now = { ln.retimedAt now with source := x, deck := d } := by
  unfold Lane.retimedAt
  rw [← Lane.composed_withDeck]
  refine congrArg Lane.composed ?_
  dsimp only
  cases (if ln.display.nextReady = true then ln.display.next.unit else none) with
  | none => rfl
  | some t => by_cases kept : t.survives ln.params now = true <;> simp only [kept] <;> rfl

/-- A retime leaves the source and the deck as they are. -/
theorem Lane.retimedAt_sameDeck : { ln.retimedAt now with source := ln.source, deck := ln.deck } = ln.retimedAt now :=
  (ln.retimedAt_withDeck now ln.source ln.deck).symm

/-- The withdraw of the flags leaves the source and the deck as they are. -/
theorem Lane.flagsWithdrawn_sameDeck :
    { ln.flagsWithdrawn now with source := ln.source, deck := ln.deck } = ln.flagsWithdrawn now := by
  unfold Lane.flagsWithdrawn
  split
  · exact ln.unflagged.retimedAt_sameDeck now
  · rfl

/-- A take recorded outlasts the withdraw of the deck and the flags, until it is dropped with its report. -/
theorem Lane.flagsWithdrawn_pendingTake :
    (ln.deckWithdrawn.flagsWithdrawn now).deck.pendingTake = ln.deck.pendingTake := by
  rw [← Lane.flagsWithdrawn_sameDeck]
  unfold Lane.deckWithdrawn
  cases ln.deck.state <;> rfl

/-- It is the same whether a recorded take is dropped before a retime or after it. -/
theorem Lane.flagsWithdrawn_untaken : (ln.flagsWithdrawn now).untaken = ln.untaken.flagsWithdrawn now := by
  have dropped := ln.unflagged.retimedAt_withDeck now ln.source { ln.deck with pendingTake := none }
  rw [← Lane.flagsWithdrawn_sameDeck]
  unfold Lane.flagsWithdrawn
  by_cases retimes : ln.retimesAtWithdraw = true
  · rw [if_pos retimes, if_pos (by exact retimes)]
    exact dropped.symm
  · rw [if_neg retimes, if_neg (by exact retimes)]

/-- The three acts, one after another, are the withdraw that Safety states. -/
theorem Lane.withdrawnAt_eq : (ln.deckWithdrawn.flagsWithdrawn now).untaken = ln.withdrawnAt now := by
  have freed : ln.deckWithdrawn.untaken = { ln with
      source := .live
      deck := match ln.deck.state with
        | .ready _ => bareDeck .empty none
        | .playing _ => bareDeck .empty none
        | _ => { ln.deck with pendingTake := none } } := by
    unfold Lane.deckWithdrawn Lane.untaken
    cases ln.deck.state <;> rfl
  rw [Lane.flagsWithdrawn_untaken, freed]
  rfl

end Acts

/-! ### The part after a withdraw -/

section Withdraw

variable (s : State) (byExpiry : Bool)

/-- The reports of a withdraw, act by act. -/
theorem State.withdrawReports_eq (value : Nat) : s.withdrawReports value
    = onBothLanes s.withdrawStale ++ onBothLanes s.withdrawTake ++ [s.note .automationWithdraw none none (some value)] :=
  rfl

theorem State.withdrawDecks_eq (room : s.reports.length ≤ 32) :
    (s.onLane .lane0 fun _ => withdrawDeck).onLane .lane1 (fun _ => withdrawDeck)
      = s.acted (fun l => (s.lane l).deckWithdrawn) [] :=
  s.onLanes_of_run (notes := fun _ => []) (fun l => withdrawDeck_run (s.lane l)) room

theorem State.withdrawFlags_eq (room : s.reports.length + (onBothLanes s.withdrawStale).length ≤ 32) :
    ((s.acted (fun l => (s.lane l).deckWithdrawn) []).onLane .lane0 withdrawFlags).onLane .lane1 withdrawFlags
      = s.acted (fun l => (s.lane l).deckWithdrawn.flagsWithdrawn s.time.sfc) (onBothLanes s.withdrawStale) := by
  rw [State.onLanes_of_run _ (after := fun l => (s.lane l).deckWithdrawn.flagsWithdrawn s.time.sfc)
    (notes := s.withdrawStale), State.acted_acted, List.nil_append]
  · intro l
    rw [State.acted_lane]
    exact withdrawFlags_run s l _ (s.lane l).deckWithdrawn_feedsNothing
  · rw [State.acted_reports, List.append_nil]
    exact room

theorem State.dropTakes_eq (rs : List Report)
    (room : s.reports.length + rs.length + (onBothLanes s.withdrawTake).length ≤ 32) :
    ((s.acted (fun l => (s.lane l).deckWithdrawn.flagsWithdrawn s.time.sfc) rs).onLane .lane0 dropTake).onLane .lane1
        dropTake
      = s.acted (fun l => (s.lane l).withdrawnAt s.time.sfc) (rs ++ onBothLanes s.withdrawTake) := by
  rw [State.onLanes_of_run _ (after := fun l => (s.lane l).withdrawnAt s.time.sfc)
    (notes := s.withdrawTake), State.acted_acted]
  · intro l
    rw [State.acted_lane, ← Lane.withdrawnAt_eq]
    exact dropTake_run s l _ ((s.lane l).flagsWithdrawn_pendingTake _)
  · rw [State.acted_reports, List.length_append]
    exact room

/-- With room for its five reports, a withdraw does what Safety states (R136). -/
theorem State.withdraw_eq (room : s.reports.length ≤ 27) :
    s.withdraw byExpiry = s.withdrawn (if byExpiry then 1 else 0) := by
  have stale := onBothLanes_length (notes := s.withdrawStale) fun l => s.staleReports_length l _
  have takes := onBothLanes_length s.withdrawTake_length
  unfold State.withdraw
  dsimp only
  rw [s.withdrawDecks_eq (by omega), s.withdrawFlags_eq (by omega), s.dropTakes_eq _ (by omega), State.report,
    State.queueReport_of_room]
  · rw [State.withdrawn, State.withdrawReports_eq, ← List.append_assoc]
    rfl
  · simp only [State.acted_reports, List.length_append]
    omega

end Withdraw

/-- Settles O54: RELEASE withdraws behind its own frame and is answered; the expiry withdraws where its frame has come. -/
theorem automationWithdraws : Obligations.AutomationWithdraws := by
  unfold Obligations.AutomationWithdraws
  intro s room
  refine ⟨fun answers => ?_, ?_⟩
  · have acked : releaseRequest [] s.heard = (s.heard.withdrawn 0, .ack none) :=
      congrArg (·, Reply.ack none) (s.heard.withdraw_eq false room)
    exact congrArg _ (requestRow_of_ack 0x32 [] _ s _ none answers rfl acked)
  · have withdrawn := s.withdraw_eq true room
    show execAutomationSupervisionExpiry s = _
    unfold execAutomationSupervisionExpiry
    cases s.supervisionExpiry with
    | none => rfl
    | some x => exact congrArg (fun t => Host.Outcome.next (if x ≤ s.time.sfc then t else s)) withdrawn

end Sys2Proof.Machine
end

section
/-! PROOF. CONFIGURE-LANE (O37): what each row of the parameter table writes, which rows touch the layout and the alignment
check, and what the lane makes of it (R88 to R90, R113, R160). -/

namespace Sys2Proof.Machine

/-! ## What a write can change -/

section Written

variable {p q : Params} {code v x : Nat} (written : writeParam p code v = some (q, x))
include written

/-- R90: the first three rows of the table write mode, width and rows, and nothing else. -/
theorem writeParam_layout (low : code ≤ 2) : q = { p with mode := q.mode, width := q.width, rows := q.rows } := by
  obtain rfl | rfl | rfl : code = 0 ∨ code = 1 ∨ code = 2 := by omega
  · unfold writeParam at written
    dsimp only at written
    split_ifs at written <;> cases written <;> rfl
  · cases written; rfl
  · cases written; rfl

/-- R90: no other row of the table writes mode, width or rows. -/
theorem writeParam_sameLayout (high : 2 < code) : layoutChanged p q = false := by
  unfold writeParam at written
  split at written
  case h_1 | h_2 | h_3 => omega
  case h_21 => cases written
  case h_17 | h_18 | h_19 | h_20 => split_ifs at written <;> cases written <;> simp [layoutChanged]
  all_goals cases written; simp [layoutChanged]

/-- R113: the alignment check is the last row of the table. -/
theorem writeParam_sameAlign (other : code ≠ 19) : p.align = q.align := by
  unfold writeParam at written
  split at written
  case h_20 => exact absurd rfl other
  case h_21 => cases written
  case h_1 | h_17 | h_18 | h_19 => split_ifs at written <;> cases written <;> rfl
  all_goals cases written; rfl

/-- A write of one of the first three rows changes the layout exactly where it changes the parameters. -/
theorem writeParam_changes (low : code ≤ 2) : layoutChanged p q = false ↔ q = p := by
  constructor
  · intro same
    simp only [layoutChanged, ne_eq, decide_not, Bool.or_eq_false_iff, Bool.not_eq_false', decide_eq_true_eq] at same
    obtain ⟨⟨mode, width⟩, rows⟩ := same
    rw [writeParam_layout written low, ← mode, ← width, ← rows]
  · rintro rfl
    simp [layoutChanged]

end Written

/-! ## What a lane makes of it -/

section Applied

variable (env : LaneEnv) (r : LaneRun) {q : Params}

/-- Where neither layout nor alignment check changes, the lane only takes the parameters (R88). -/
theorem applyParams_of_same (layout : layoutChanged r.lane.params q = false) (align : r.lane.params.align = q.align) :
    applyParams q env r = r.edit fun ln => { ln with params := q } := by
  simp only [applyParams, layout, align, if_true, Bool.false_eq_true, if_false]

/-- A change of layout invalidates the deck besides (R90, R160). -/
theorem applyParams_of_layout (layout : layoutChanged r.lane.params q = true) (align : r.lane.params.align = q.align) :
    applyParams q env r = invalidateDeck env (r.edit fun ln => { ln with params := q }) := by
  simp only [applyParams, layout, align, if_true]

/-- A change of the alignment check clears its runs and its fault (R113). -/
theorem applyParams_of_align (layout : layoutChanged r.lane.params q = false) (align : r.lane.params.align ≠ q.align) :
    applyParams q env r = r.edit fun ln => { ln with params := q, display := ln.display.alignReset } := by
  simp only [applyParams, layout, align, Bool.false_eq_true, if_false]

theorem invalidateDeck_of_ready {g : Nat} (ready : r.lane.deck.state = .ready g) :
    invalidateDeck env r = (r.editDeck fun d => d.without .empty).emit env .deckInvalidated none (some g) := by
  simp only [invalidateDeck, ready]

theorem invalidateDeck_of_other (other : ∀ g, r.lane.deck.state ≠ .ready g) : invalidateDeck env r = r := by
  unfold invalidateDeck
  split
  · next g ready => exact absurd ready (other g)
  · rfl

end Applied

/-! ## The request (R88) -/

section Request

variable (s : State) (l : LaneId) (n lo hi : Byte)

/-- The number that stands behind the lane and the parameter (R182). -/
theorem wordAt_two (a b lo hi : Byte) : wordAt [a, b, lo, hi] 2 = lo.toNat + 256 * hi.toNat := by simp [wordAt, leNat]

/-- The lane and the parameter that stand before the number (R182). -/
theorem configureLane_fields : laneOf (byteAt [BitVec.ofNat 8 (laneNumber l), n, lo, hi] 0) = some l
    ∧ byteAt [BitVec.ofNat 8 (laneNumber l), n, lo, hi] 1 = n.toNat := by
  cases l <;> exact ⟨rfl, rfl⟩

theorem configureLaneRequest_of_unwritten
    (unwritten : writeParam (s.lane l).params n.toNat (lo.toNat + 256 * hi.toNat) = none) :
    configureLaneRequest [BitVec.ofNat 8 (laneNumber l), n, lo, hi] s = (s, .refused .badField) := by
  obtain ⟨lane, number⟩ := configureLane_fields l n lo hi
  simp only [configureLaneRequest, lane, number, wordAt_two, unwritten]

/-- A value that the table takes is written, but for the layout on a RUNNING lane (R88, R90). -/
theorem configureLaneRequest_of_written {q : Params} {x : Nat}
    (written : writeParam (s.lane l).params n.toNat (lo.toNat + 256 * hi.toNat) = some (q, x)) :
    configureLaneRequest [BitVec.ofNat 8 (laneNumber l), n, lo, hi] s
      = if n.toNat ≤ 2 ∧ s.running l then (s, .refused .laneRunning)
        else (s.onLane l (applyParams q), .ack (some x)) := by
  obtain ⟨lane, number⟩ := configureLane_fields l n lo hi
  simp only [configureLaneRequest, lane, number, wordAt_two, written]

variable (room : s.canAnswer)
include room

/-- A lane that is not in the part is refused with BAD_FIELD (R185). -/
theorem exec_configureLane_of_noLane {lane : Byte} (above : 1 < lane.toNat) :
    exec (.configureLane [lane, n, lo, hi]) s = .next (s.answered { kind := 0x51, payload := [3, 0x20] }) := by
  have none_named : laneOf (byteAt [lane, n, lo, hi] 0) = none := laneOf_of_above _ above
  have refused : configureLaneRequest [lane, n, lo, hi] s.heard = (s.heard, .refused .badField) := by
    simp only [configureLaneRequest, none_named]
  exact congrArg _ (requestRow_of_refused 0x20 _ _ s _ room rfl refused)

variable {n lo hi}

/-- A parameter that is not in the table, or a value that is none of its names, is refused with BAD_FIELD (R88, R185). -/
theorem exec_configureLane_of_unwritten
    (unwritten : writeParam (s.lane l).params n.toNat (lo.toNat + 256 * hi.toNat) = none) :
    exec (.configureLane [BitVec.ofNat 8 (laneNumber l), n, lo, hi]) s
      = .next (s.answered { kind := 0x51, payload := [3, 0x20] }) :=
  congrArg _ (requestRow_of_refused 0x20 _ _ s _ room rfl
    (configureLaneRequest_of_unwritten s.heard l n lo hi unwritten))

variable {q : Params} {x : Nat}
  (written : writeParam (s.lane l).params n.toNat (lo.toNat + 256 * hi.toNat) = some (q, x))
include written

/-- A write of the layout is refused on a RUNNING lane (R90). -/
theorem exec_configureLane_of_running (low : n.toNat ≤ 2) (running : (s.lane l).state = .running) :
    exec (.configureLane [BitVec.ofNat 8 (laneNumber l), n, lo, hi]) s
      = .next (s.answered { kind := 0x51, payload := [9, 0x20] }) := by
  have refused := configureLaneRequest_of_written s.heard l n lo hi written
  rw [if_pos ⟨low, State.running_iff.mpr running⟩] at refused
  exact congrArg _ (requestRow_of_refused 0x20 _ _ s _ room rfl refused)

/-- Any other write takes effect on the lane and is answered with the value applied (R88, R185). -/
theorem exec_configureLane_of_written (free : 2 < n.toNat ∨ (s.lane l).state = .stopped) :
    exec (.configureLane [BitVec.ofNat 8 (laneNumber l), n, lo, hi]) s
      = .next ((s.heard.onLane l (applyParams q)).send .automation (ackOf 0x20 (some x))) := by
  have acked := configureLaneRequest_of_written s.heard l n lo hi written
  rw [if_neg] at acked
  · exact congrArg _ (requestRow_of_ack 0x20 _ _ s _ _ room rfl acked)
  · rintro ⟨low, running⟩
    rw [State.running_iff, State.heard_lane] at running
    rcases free with high | stopped
    · omega
    · exact LaneState.noConfusion (stopped.symm.trans running)

/-- A write that changes neither layout nor alignment check is the write of the parameters alone. -/
theorem exec_configureLane_of_same (free : 2 < n.toNat ∨ (s.lane l).state = .stopped)
    (layout : layoutChanged (s.lane l).params q = false) (align : (s.lane l).params.align = q.align) :
    exec (.configureLane [BitVec.ofNat 8 (laneNumber l), n, lo, hi]) s = .next (s.withParams l q x) := by
  have applied := applyParams_of_same (s.env l) { lane := s.lane l, out := [] } layout align
  rw [exec_configureLane_of_written s l room written free,
    State.onLane_of_quiet s.heard l _ (congrArg LaneRun.out applied), State.heard_env, State.heard_lane, applied]
  rfl

/-- A write of a row that is neither the layout's nor the alignment check's (R88). -/
theorem exec_configureLane_of_plain (high : 2 < n.toNat) (other : n.toNat ≠ 19) :
    exec (.configureLane [BitVec.ofNat 8 (laneNumber l), n, lo, hi]) s = .next (s.withParams l q x) :=
  exec_configureLane_of_same s l room written (.inl high) (writeParam_sameLayout written high)
    (writeParam_sameAlign written other)

/-- A write that changes the alignment check (R113). -/
theorem exec_configureLane_of_align (high : 2 < n.toNat) (align : (s.lane l).params.align ≠ q.align) :
    exec (.configureLane [BitVec.ofNat 8 (laneNumber l), n, lo, hi]) s
      = .next ((s.answered (ackOf 0x20 (some x))).setLane l { s.lane l with
          params := q
          display := { (s.lane l).display with missRun := 0, matchRun := 0, alignFault := false } }) := by
  have applied := applyParams_of_align (s.env l) { lane := s.lane l, out := [] }
    (writeParam_sameLayout written high) align
  rw [exec_configureLane_of_written s l room written (.inl high),
    State.onLane_of_quiet s.heard l _ (congrArg LaneRun.out applied), State.heard_env, State.heard_lane, applied]
  rfl

/-- A write of the layout on a STOPPED lane (R90, R160). -/
theorem exec_configureLane_of_layout (low : n.toNat ≤ 2) (stopped : (s.lane l).state = .stopped) (report : s.canReport) :
    exec (.configureLane [BitVec.ofNat 8 (laneNumber l), n, lo, hi]) s = .next (s.withLayout l q x) := by
  have align : (s.lane l).params.align = q.align := writeParam_sameAlign written (by omega)
  by_cases same : q = (s.lane l).params
  · have whole : s.withLayout l q x = s.withParams l q x := by
      unfold State.withLayout
      split
      · exact if_pos same
      · rfl
    rw [whole]
    exact exec_configureLane_of_same s l room written (.inr stopped) ((writeParam_changes written low).mpr same) align
  · have layout : layoutChanged (s.lane l).params q = true :=
      Bool.eq_true_of_not_eq_false fun h => same ((writeParam_changes written low).mp h)
    have applied := applyParams_of_layout (s.env l) { lane := s.lane l, out := [] } layout align
    rw [exec_configureLane_of_written s l room written (.inr stopped)]
    unfold State.withLayout
    split
    · next g ready =>
      rw [invalidateDeck_of_ready (s.env l) _ ready] at applied
      rw [State.onLane_of_run s.heard l applied (by exact report), if_neg same]
      rfl
    · next other =>
      rw [invalidateDeck_of_other (s.env l) _ other] at applied
      rw [State.onLane_of_quiet s.heard l _ (congrArg LaneRun.out applied), State.heard_env, State.heard_lane, applied]
      rfl

end Request

/-! ## The rows of the table (R88 to R90) -/

/-- The rows that are only clamped, as the table lists them. -/
theorem writeParam_plain {e : Byte × Nat × Nat × (Nat → Params → Params)} (mem : e ∈ plainParams) (p : Params) (v : Nat) :
    writeParam p e.1.toNat v = some (e.2.2.2 (clamp e.2.1 e.2.2.1 v) p, clamp e.2.1 e.2.2.1 v)
      ∧ 2 < e.1.toNat ∧ e.1.toNat ≠ 19 := by
  simp only [plainParams, List.mem_cons, List.not_mem_nil, or_false] at mem
  rcases mem with rfl | rfl | rfl | rfl | rfl | rfl | rfl <;> exact ⟨rfl, by decide, by decide⟩

theorem writeParam_of_above (p : Params) {code : Nat} (v : Nat) (above : 19 < code) : writeParam p code v = none := by
  unfold writeParam
  split
  case h_21 => rfl
  all_goals omega

/-- The rows whose values are names know two of them. -/
theorem writeParam_of_unnamed (p : Params) {code v : Nat} (named : code ∈ [0, 17, 18, 19]) (above : 1 < v) :
    writeParam p code v = none := by
  have zero : ¬ v = 0 := by omega
  have one : ¬ v = 1 := by omega
  simp only [List.mem_cons, List.not_mem_nil, or_false] at named
  rcases named with rfl | rfl | rfl | rfl <;> simp only [writeParam, zero, one, if_false]

/-- The alignment check is off and on (R113). -/
theorem writeParam_align (p : Params) {v : Nat} (two : ¬ 1 < v) :
    writeParam p 19 v = some ({ p with align := decide (v = 1) }, v) := by
  obtain rfl | rfl : v = 0 ∨ v = 1 := by omega
  · rfl
  · rfl

/-- A write of mode 0 answers with the clamped rows in its upper byte (R90, R183). -/
theorem writeParam_block (p : Params) : writeParam p 0 0
    = some ({ p with mode := .block, rows := clamp 1 3 p.rows }, 256 * clamp 1 3 p.rows) :=
  congrArg (fun x => some (({ p with mode := .block, rows := clamp 1 3 p.rows } : Params), x)) (Nat.zero_add _)

section Rows

variable (s : State) (l : LaneId) {lo hi : Byte} (room : s.canAnswer)
include room

/-- A row of two names, neither the layout's nor the alignment check's. -/
theorem exec_configureLane_of_named {n : Byte} (row : n.toNat = 17 ∨ n.toNat = 18) {off on : Params}
    (zero : writeParam (s.lane l).params n.toNat 0 = some (off, 0))
    (one : writeParam (s.lane l).params n.toNat 1 = some (on, 1)) :
    exec (.configureLane [BitVec.ofNat 8 (laneNumber l), n, lo, hi]) s = .next
      (if lo.toNat + 256 * hi.toNat = 0 then s.withParams l off 0
       else if lo.toNat + 256 * hi.toNat = 1 then s.withParams l on 1
       else s.answered { kind := 0x51, payload := [3, 0x20] }) := by
  split
  · next isOff => exact exec_configureLane_of_plain s l room (by rw [isOff]; exact zero) (by omega) (by omega)
  · split
    · next isOn => exact exec_configureLane_of_plain s l room (by rw [isOn]; exact one) (by omega) (by omega)
    · refine exec_configureLane_of_unwritten s l room (writeParam_of_unnamed _ ?_ (by omega))
      rcases row with row | row <;> simp [row]

/-- The row of the alignment check (R113). -/
theorem exec_configureLane_alignCheck {v : Nat} (number : v = lo.toNat + 256 * hi.toNat) :
    exec (.configureLane [BitVec.ofNat 8 (laneNumber l), 19, lo, hi]) s = .next
      (if 1 < v then s.answered { kind := 0x51, payload := [3, 0x20] }
       else if (s.lane l).params.align = decide (v = 1) then s.withParams l (s.lane l).params v
       else (s.answered (ackOf 0x20 (some v))).setLane l { s.lane l with
         params := { (s.lane l).params with align := decide (v = 1) }
         display := { (s.lane l).display with missRun := 0, matchRun := 0, alignFault := false } }) := by
  subst number
  split
  · next above => exact exec_configureLane_of_unwritten s l room (writeParam_of_unnamed _ (by decide) above)
  · next two =>
    have written := writeParam_align (s.lane l).params two
    split
    · next same =>
      rw [← same] at written
      exact exec_configureLane_of_same s l room written (.inl (by decide)) (writeParam_sameLayout written (by decide)) rfl
    · next changed => exact exec_configureLane_of_align s l room written (by decide) changed

/-- A write of the mode is refused on a RUNNING lane (R90). -/
theorem exec_configureLane_mode_of_running (two : lo.toNat + 256 * hi.toNat ≤ 1) (running : (s.lane l).state = .running) :
    exec (.configureLane [BitVec.ofNat 8 (laneNumber l), 0, lo, hi]) s
      = .next (s.answered { kind := 0x51, payload := [9, 0x20] }) := by
  obtain block | roll : lo.toNat + 256 * hi.toNat = 0 ∨ lo.toNat + 256 * hi.toNat = 1 := by omega
  · exact exec_configureLane_of_running s l room (by rw [block]; rfl) (by decide) running
  · exact exec_configureLane_of_running s l room (by rw [roll]; rfl) (by decide) running

/-- A lane or a parameter that is not in its table is refused with BAD_FIELD (R88, R185). -/
theorem exec_configureLane_of_unknown {lane n : Byte} (unknown : 1 < lane.toNat ∨ 19 < n.toNat) :
    exec (.configureLane [lane, n, lo, hi]) s = .next (s.answered { kind := 0x51, payload := [3, 0x20] }) := by
  by_cases above : 1 < lane.toNat
  · exact exec_configureLane_of_noLane s n lo hi room above
  · have unwritten (l : LaneId) := writeParam_of_above (s.lane l).params (lo.toNat + 256 * hi.toNat)
      (unknown.resolve_left above)
    have named : lane = 0 ∨ lane = 1 := by bv_omega
    rcases named with rfl | rfl
    · exact exec_configureLane_of_unwritten s .lane0 room (unwritten .lane0)
    · exact exec_configureLane_of_unwritten s .lane1 room (unwritten .lane1)

end Rows

/-- Settles O37: each row by what it writes, then the guard of the layout, and the fields that name nothing. -/
theorem configureLaneParameters : Obligations.ConfigureLaneParameters := by
  unfold Obligations.ConfigureLaneParameters
  rintro s l lo hi v room rfl
  have plain {n : Byte} {q : Params} {x : Nat} := exec_configureLane_of_plain s l room (n := n) (lo := lo) (hi := hi)
    (q := q) (x := x)
  have bad {n : Byte} := exec_configureLane_of_unwritten s l room (n := n) (lo := lo) (hi := hi)
  refine ⟨fun e mem => ?_, plain rfl (by decide) (by decide), plain rfl (by decide) (by decide),
    plain rfl (by decide) (by decide), plain rfl (by decide) (by decide), plain rfl (by decide) (by decide),
    plain rfl (by decide) (by decide), ?_, exec_configureLane_of_named s l room (.inl rfl) rfl rfl,
    exec_configureLane_of_named s l room (.inr rfl) rfl rfl, exec_configureLane_alignCheck s l room rfl,
    fun above => bad (writeParam_of_unnamed _ (by decide) above), fun running => ⟨?_, ?_, ?_⟩,
    fun stopped report => ⟨fun block => ?_, fun roll => ?_, ?_, ?_⟩, fun lane n unknown => ?_⟩
  · obtain ⟨written, high, other⟩ := writeParam_plain mem (s.lane l).params (lo.toNat + 256 * hi.toNat)
    exact plain written high other
  · split
    · next fits => exact plain (if_pos fits) (by decide) (by decide)
    · next above => exact bad (if_neg above)
  · exact fun two => exec_configureLane_mode_of_running s l room two running
  · exact exec_configureLane_of_running s l room rfl (by decide) running
  · exact exec_configureLane_of_running s l room rfl (by decide) running
  · exact exec_configureLane_of_layout s l room (by rw [block]; exact writeParam_block _) (by decide) stopped report
  · exact exec_configureLane_of_layout s l room (by rw [roll]; rfl) (by decide) stopped report
  · exact exec_configureLane_of_layout s l room rfl (by decide) stopped report
  · exact exec_configureLane_of_layout s l room rfl (by decide) stopped report
  · exact exec_configureLane_of_unknown s room unknown

end Sys2Proof.Machine
end

section
/-! PROOF. STEP, JOIN and SPLIT (R109, R121, R125, R130, R131): O48 and O50. -/

namespace Sys2Proof.Machine

/-! ## STEP (R125) -/

section Step

variable (env : LaneEnv) (r : LaneRun)

/-- A STEP that releases, on a lane that feeds nothing. -/
theorem laneStep_of_due (held : r.lane.held = true) (free : r.lane.frozen = false)
    (ready : r.lane.display.nextReady = true) (feeds : r.lane.feedsNothing) :
    laneStep env r = { r with lane := r.lane.released env.sfc } := by
  have due : r.lane.held = true ∧ ¬ r.lane.frozen = true ∧ r.lane.display.nextReady = true :=
    ⟨held, by rw [free]; exact Bool.false_ne_true, ready⟩
  exact (if_pos due).trans (release_eq env r feeds)

/-- A STEP that finds the lane not HELD, FROZEN, or without a next image. -/
theorem laneStep_of_idle
    (idle : ¬ (r.lane.held = true ∧ r.lane.frozen = false ∧ r.lane.display.nextReady = true)) : laneStep env r = r := by
  refine if_neg fun ⟨held, thawed, ready⟩ => idle ⟨held, ?_, ready⟩
  exact Bool.eq_false_iff.mpr thawed

end Step

/-- Settles O48: either the STEP releases, with the composition behind it, or the lane's blocks do nothing. -/
theorem stepReleasesOne : Obligations.StepReleasesOne := by
  unfold Obligations.StepReleasesOne
  intro s l broadcast mask tag segment a b c only running room feeds
  split
  · next due =>
    obtain ⟨held, free, ready⟩ := due
    exact exec_cue_of_quiet only running room mem_cueTable_step nofun ⟨nofun, nofun⟩
      (laneStep_of_due (s.env l) { lane := s.lane l, out := [] } held free ready feeds)
  · next idle =>
    exact exec_cue_of_idle only running room mem_cueTable_step nofun ⟨nofun, nofun⟩
      (laneStep_of_idle (s.env l) { lane := s.lane l, out := [] } idle)

/-! ## JOIN and SPLIT (R130, R131) -/

theorem mem_cueTable_join : (8, CueKind.join, Instr.join) ∈ cueTable := by simp [cueTable]
theorem mem_cueTable_split : (7, CueKind.split, Instr.split) ∈ cueTable := by simp [cueTable]

/-- A lane swept without its style state, in the words of Safety (R68, R85, R109). -/
theorem Lane.swept_false (ln : Lane) : ln.swept false = { ln with
    frozen := false, held := false, builder := emptyBuilder 0 false, engine := emptyEngine ln.engine.nextRef
    display := ln.display.blankedByCue } := by
  rw [Lane.swept, DisplaySet.cleared_eq]
  rfl

/-- A cue that addresses one lane alone is what the part does for that lane, RUNNING or STOPPED (R120). -/
theorem exec_cue_only {s : State} {l : LaneId} {broadcast : Bool} {mask tag segment a b c : Byte}
    (only : s.onlyAddresses mask l) (room : broadcast = true ∨ s.canAnswer)
    {e : Byte × CueKind × (Bool → List Byte → Instr)} (mem : e ∈ cueTable) (good : e.2.1 = .take → segment.toNat ≤ 63) :
    exec (e.2.2 broadcast (immediateCue mask tag segment a b c)) s
      = .next (cueTaken broadcast (s.heard.cueOnLane (immediate e.2.1 mask tag segment) l, .ack none)) := by
  rw [exec_cue_immediate mem s broadcast mask tag segment a b c room good,
    State.executeCue_only s.heard (immediate e.2.1 mask tag segment) l only]

/-- A cue that is carried out and leaves everything else as it was. -/
theorem cueTaken_heard (s : State) (broadcast : Bool) : cueTaken broadcast (s.heard, .ack none) = s.cueHeard broadcast := by
  cases broadcast <;> rfl

section Lane1

variable (s : State) (empty : (s.lane .lane1).deck.state = .empty)

include empty

/-- JOIN where no deck plays and no take waits: lane 1 is swept and its source LIVE (R130, log entry 13). -/
theorem State.join_of_empty (free : (s.lane .lane1).deck.pendingTake = none) :
    s.join = { s.setLane .lane1 { (s.lane .lane1).swept false with source := .live } with
      following := true
      followedSerial := if s.following then s.followedSerial else none
      followedStatus := if s.following then s.followedStatus else none } := by
  have idle (g : Nat) : (s.lane .lane1).deck.state ≠ .playing g := by rw [empty]; exact DeckState.noConfusion
  have emptied := laneClear_of_notPlaying (s.env .lane1) { lane := s.lane .lane1, out := [] } false idle free
  rw [State.join, State.onLane_of_quiet s .lane1 (laneClear false) (congrArg LaneRun.out emptied), emptied]
  cases following : s.following with
  | true => simp only [if_true, ← following]; rfl
  | false => rfl

/-- SPLIT where no deck plays: lane 1 is swept (R131). -/
theorem State.split_of_empty : s.split = { s.setLane .lane1 ((s.lane .lane1).swept false) with following := false } := by
  have swept : laneSplit (s.env .lane1) { lane := s.lane .lane1, out := [] }
      = { lane := (s.lane .lane1).swept false, out := [] } :=
    feed_of_notPlaying _ _ fun g playing => DeckState.noConfusion (empty.symm.trans playing)
  have quiet := State.onLane_of_quiet { s with following := false } .lane1 laneSplit (congrArg LaneRun.out swept)
  exact quiet.trans (congrArg (fun r => ({ s with following := false } : State).setLane .lane1 (LaneRun.lane r)) swept)

end Lane1

/-- JOIN and SPLIT do nothing on lane 0, RUNNING or STOPPED (R121, R130, R131). -/
theorem State.cueOnLane_lane0_of_pairing (s : State) (c : Cue) (pairing : c.kind = .join ∨ c.kind = .split) :
    s.cueOnLane c .lane0 = s := by
  obtain ⟨kind, mask, tag, segment⟩ := c
  obtain rfl | rfl := pairing <;>
    exact (congrArg (fun t => if s.running .lane0 then t else s) (s.onLane_id .lane0)).trans (ite_self s)

/-- Settles O50: on lane 1 the two cues sweep the lane and set or clear FOLLOWING, whatever the lane's state. -/
theorem joinAndSplit : Obligations.JoinAndSplit := by
  unfold Obligations.JoinAndSplit
  intro s broadcast mask tag segment a b c room
  refine ⟨fun only empty => ⟨fun free => ?_, ?_⟩, fun only => ⟨?_, ?_⟩⟩
  · have joined := s.heard.join_of_empty empty free
    rw [Lane.swept_false] at joined
    refine (exec_cue_only only room mem_cueTable_join nofun).trans ?_
    refine (congrArg (fun t => Host.Outcome.next (cueTaken broadcast (t, .ack none))) joined).trans ?_
    cases broadcast <;> rfl
  · have divided := s.heard.split_of_empty empty
    rw [Lane.swept_false] at divided
    refine (exec_cue_only only room mem_cueTable_split nofun).trans ?_
    refine (congrArg (fun t => Host.Outcome.next (cueTaken broadcast (t, .ack none))) divided).trans ?_
    cases broadcast <;> rfl
  · refine (exec_cue_only only room mem_cueTable_join nofun).trans ?_
    rw [State.cueOnLane_lane0_of_pairing _ _ (.inl rfl), cueTaken_heard]
  · refine (exec_cue_only only room mem_cueTable_split nofun).trans ?_
    rw [State.cueOnLane_lane0_of_pairing _ _ (.inr rfl), cueTaken_heard]

end Sys2Proof.Machine
end

section
/-! PROOF. The inserter request (R99 to R107, R111, R112, R180): O59. -/

namespace Sys2Proof.Machine

/-! ## The frame of a request (R104, R180) -/

/-- The part after an inserter's frame that does nothing else: counted. -/
def State.requested (s : State) (l : LaneId) : State := { s with links := linksCounted s.links (.inserter l) }

/-- What a request does behind the alignment check (R104, R106, R107). -/
def State.served (s : State) (l : LaneId) : State :=
  if s.follows l then s.replyFollowing
  else if s.running l then
    let s := s.onLane l serveImage
    s.replyOwn l (decide ((s.lane l).params.reply = .everyFrame))
  else s.replyOwn l false

theorem State.takeRequest_eq (s : State) (l : LaneId) (word : TimecodeWord) :
    s.takeRequest l word = (s.onLane l (alignCheck s.time (timecodeFrames word s.time.rate))).served l := rfl

/-- An act that changes nothing and queues nothing. -/
theorem State.onLane_of_still (s : State) (l : LaneId) {act : LaneEnv → LaneRun → LaneRun}
    (still : act (s.env l) { lane := s.lane l, out := [] } = { lane := s.lane l, out := [] }) : s.onLane l act = s := by
  rw [State.onLane_of_quiet s l act (congrArg LaneRun.out still), still, State.setLane_lane]

section Frame

variable (s : State) (l : LaneId)

/-- The inserter link holds its limit of replies (R180). -/
theorem State.requested_repliesFull :
    (s.requested l).repliesFull (.inserter l) = decide (2 ≤ (s.link (.inserter l)).waiting.length) := by
  simp only [State.repliesFull, State.requested, linksCounted, State.link, Links.get_set_self]
  rfl

/-- A reply joins the frames that wait on the link of a counted request (R103). -/
theorem State.requested_send (f : TxFrame) :
    (s.requested l).send (.inserter l) f = { s with links := linksServed s.links l f } := by
  simp only [State.send, LinkState.send, State.requested, State.setLink, State.link, linksCounted, linksServed,
    Links.get_set_self, Links.set_set]

/-- A request that finds two replies unsent is only counted (R180). -/
theorem exec_inserterRequest_of_full (p : List Byte) (full : 2 ≤ (s.link (.inserter l)).waiting.length) :
    exec (.inserterRequest l p) s = .next (s.requested l) := by
  refine congrArg Host.Outcome.next ?_
  unfold State.inserterFrame
  rw [State.goodFrame_inserter]
  exact if_pos ((s.requested_repliesFull l).trans (decide_eq_true full))

variable (h m n f : Byte) (room : (s.link (.inserter l)).waiting.length < 2)

include room

/-- A request that finds room for its reply is counted and taken (R104). -/
theorem exec_inserterRequest_of_room : exec (.inserterRequest l [h, m, n, f]) s
    = .next ((s.requested l).takeRequest l { hh := h, mm := m, ss := n, ff := f }) := by
  have free : ¬ (s.requested l).repliesFull (.inserter l) = true := by
    rw [State.requested_repliesFull, decide_eq_true_eq]
    exact Nat.not_le.mpr room
  refine congrArg Host.Outcome.next ?_
  unfold State.inserterFrame
  rw [State.goodFrame_inserter]
  exact if_neg free

/-- With the alignment check OFF a request is served at once (R111). -/
theorem exec_inserterRequest_of_unaligned (off : (s.lane l).params.align = false) :
    exec (.inserterRequest l [h, m, n, f]) s = .next ((s.requested l).served l) := by
  rw [exec_inserterRequest_of_room s l h m n f room, State.takeRequest_eq, State.onLane_of_still]
  exact if_neg (by rw [show ((s.requested l).lane l).params.align = false from off]; exact Bool.false_ne_true)

end Frame

/-! ## Release and blank (R99 to R101) -/

/-- A lane whose next image a request at this SFC does not release, HELD or not (R99). -/
def Lane.waitsAt (ln : Lane) (sfc : Nat) : Prop :=
  ln.held = true ∨ ln.display.nextReady = false ∨ ∃ r, ln.display.next.release = some r ∧ sfc < r

section Image

variable (env : LaneEnv) (r : LaneRun)

theorem releaseDue_of_waits (ln : Lane) (waits : ln.waitsAt env.sfc) : releaseDue env ln = false := by
  obtain held | unready | ⟨x, release, ahead⟩ := waits
  · simp [releaseDue, held]
  · simp [releaseDue, unready]
  · simp [releaseDue, release, ahead]

/-- A request that releases, on a lane that feeds nothing (R99). -/
theorem serveImage_of_due {x : Nat} (free : r.lane.frozen = false) (unheld : r.lane.held = false)
    (ready : r.lane.display.nextReady = true) (release : r.lane.display.next.release = some x) (due : x ≤ env.sfc)
    (feeds : r.lane.feedsNothing) : serveImage env r = { r with lane := r.lane.released env.sfc } := by
  have releases : releaseDue env r.lane = true := by simp [releaseDue, free, unheld, ready, release, due]
  exact (if_pos releases).trans (release_eq env r feeds)

/-- The air image blanked, in the words of Safety (R101). -/
theorem blankAir_eq :
    blankAir r = { r with lane := { r.lane with display := r.lane.display.blankedAt r.lane.params.mode } } := by
  unfold blankAir LaneRun.edit DisplaySet.blankedAt
  dsimp only [DisplaySet.changeAir]
  split <;> rfl

/-- A request that blanks (R101). -/
theorem serveImage_of_stood (free : r.lane.frozen = false) (shows : r.lane.display.air.rows ≠ [])
    (stood : r.lane.display.onAir + r.lane.params.hClear ≤ env.sfc) (waits : r.lane.waitsAt env.sfc) :
    serveImage env r
      = { r with lane := { r.lane with display := r.lane.display.blankedAt r.lane.params.mode } } := by
  have blanks : blankDue env r.lane = true := by simp [blankDue, free, Image.isBlank, shows, stood]
  simp only [serveImage, releaseDue_of_waits env r.lane waits, blanks, Bool.false_eq_true, if_true, if_false,
    blankAir_eq]

/-- A request that neither releases nor blanks. -/
theorem serveImage_of_still (still : r.lane.frozen = true ∨ (r.lane.waitsAt env.sfc
      ∧ (r.lane.display.air.rows = [] ∨ env.sfc < r.lane.display.onAir + r.lane.params.hClear))) :
    serveImage env r = r := by
  have neither : releaseDue env r.lane = false ∧ blankDue env r.lane = false := by
    obtain frozen | ⟨waits, blank | fresh⟩ := still
    · simp [releaseDue, blankDue, frozen]
    · exact ⟨releaseDue_of_waits env r.lane waits, by simp [blankDue, Image.isBlank, blank]⟩
    · exact ⟨releaseDue_of_waits env r.lane waits, by simp [blankDue, fresh]⟩
  obtain ⟨keeps, shows⟩ := neither
  simp only [serveImage, keeps, shows, Bool.false_eq_true, if_false]

end Image

/-- Composition leaves what a reply shows: the air image, the serial, the flags (R95, R96). -/
theorem Lane.composed_shown (ln : Lane) : ln.composed.display.air = ln.display.air
    ∧ ln.composed.display.serial = ln.display.serial ∧ ln.composed.display.changed = ln.display.changed
    ∧ ln.composed.display.alignFault = ln.display.alignFault ∧ ln.composed.shownFlags = ln.shownFlags := by
  unfold Lane.composed
  split
  · split <;> exact ⟨rfl, rfl, rfl, rfl, rfl⟩
  · exact ⟨rfl, rfl, rfl, rfl, rfl⟩

/-- What a reply shows of a lane right after a release (R99, R100). -/
theorem Lane.released_shown (ln : Lane) (sfc : Nat) :
    (ln.released sfc).display.air = (ln.display.releasedAt sfc).air
    ∧ (ln.released sfc).display.serial = (ln.display.releasedAt sfc).serial
    ∧ (ln.released sfc).display.changed = true
    ∧ (ln.released sfc).display.alignFault = (ln.display.releasedAt sfc).alignFault
    ∧ (ln.released sfc).shownFlags = ln.shownFlags := Lane.composed_shown _

/-! ## Replies (R103 to R107) -/

theorem laneFlags_eq (ln : Lane) (following alignFault : Bool) :
    laneFlags ln following alignFault = ln.shownFlags following alignFault := by
  simp only [laneFlags, statusFlags, Lane.shownFlags, decide_eq_true_eq]

/-- The part after a request is answered from the own image of a lane that is now this (R103, R105). -/
def State.repliedOwn (s : State) (l : LaneId) (ln : Lane) (everyFrame : Bool) : State :=
  let d := ln.display
  let flags := ln.shownFlags false d.alignFault
  if d.changed = true ∨ everyFrame = true then
    { s.setLane l { ln with display := { d with changed := false } } with
      links := linksServed s.links l (displayFrame l flags d.serial d.air) }
  else { s.setLane l ln with links := linksServed s.links l (unchangedFrame l flags d.serial) }

section Replies

variable (s : State) (l : LaneId)

theorem State.requested_replyOwn (everyFrame : Bool)
    (serial : (s.lane l).display.air.serial = some (s.lane l).display.serial) :
    (s.requested l).replyOwn l everyFrame = s.repliedOwn l (s.lane l) everyFrame := by
  have same : (s.requested l).lane l = s.lane l := rfl
  unfold State.replyOwn State.repliedOwn
  simp only [same, serial, Option.getD_some, laneFlags_eq]
  split
  · exact State.requested_send (s.setLane l _) l _
  · rw [State.setLane_lane]
    exact State.requested_send s l _

/-- A lane that changed is told with DISPLAY. -/
theorem State.repliedOwn_of_changed (ln : Lane) (everyFrame : Bool) (changed : ln.display.changed = true) :
    s.repliedOwn l ln everyFrame = { s.setLane l { ln with display := { ln.display with changed := false } } with
      links := linksServed s.links l
        (displayFrame l (ln.shownFlags false ln.display.alignFault) ln.display.serial ln.display.air) } :=
  if_pos (.inl changed)

variable (own : s.follows l = false)

include own

/-- A RUNNING lane's request is answered from the image that it leaves (R104). -/
theorem State.served_of_running {ln : Lane} (running : (s.lane l).state = .running)
    (run : serveImage (s.env l) { lane := s.lane l, out := [] } = { lane := ln, out := [] })
    (serial : ln.display.air.serial = some ln.display.serial) :
    (s.requested l).served l = s.repliedOwn l ln (decide (ln.params.reply = .everyFrame)) := by
  have runs : (s.requested l).running l = true := decide_eq_true running
  have away : ¬ (s.requested l).follows l = true := Bool.eq_false_iff.mp own
  have quiet := State.onLane_of_quiet (s.requested l) l serveImage (congrArg LaneRun.out run)
  rw [show serveImage ((s.requested l).env l) { lane := (s.requested l).lane l, out := [] } = _ from run] at quiet
  have replied := (s.setLane l ln).requested_replyOwn l (decide (ln.params.reply = .everyFrame))
    (by rw [State.lane_setLane_self]; exact serial)
  unfold State.served
  rw [if_neg away, if_pos runs, quiet]
  simp only [State.lane_setLane_self] at replied ⊢
  refine replied.trans ?_
  simp only [State.repliedOwn, State.setLane_setLane, State.setLane_links]

/-- A STOPPED lane's request is answered from the blank image (R106). -/
theorem State.served_of_stopped (stopped : (s.lane l).state = .stopped)
    (serial : (s.lane l).display.air.serial = some (s.lane l).display.serial) :
    (s.requested l).served l = s.repliedOwn l (s.lane l) false := by
  have idle : ¬ (s.requested l).running l = true := Bool.eq_false_iff.mp (State.running_of_stopped stopped)
  have away : ¬ (s.requested l).follows l = true := Bool.eq_false_iff.mp own
  unfold State.served
  rw [if_neg away, if_neg idle, State.requested_replyOwn s l false serial]

end Replies

/-- Lane 1's request while FOLLOWING is answered from lane 0's image (R107). -/
theorem State.served_of_following (s : State) (following : s.following = true)
    (serial : (s.lane .lane0).display.air.serial = some (s.lane .lane0).display.serial) :
    (s.requested .lane1).served .lane1
      = if (s.lane .lane1).display.changed = true ∨ (s.lane .lane1).params.reply = .everyFrame
            ∨ s.followedSerial ≠ some (s.lane .lane0).display.serial
            ∨ s.followedStatus ≠ some (followedFlags (s.lane .lane0)) then
          { s.setLane .lane1 { s.lane .lane1 with display := { (s.lane .lane1).display with changed := false } } with
            followedSerial := some (s.lane .lane0).display.serial
            followedStatus := some (followedFlags (s.lane .lane0))
            links := linksServed s.links .lane1 (displayFrame .lane1
              ((s.lane .lane0).shownFlags true (s.lane .lane1).display.alignFault)
              (s.lane .lane0).display.serial (s.lane .lane0).display.air) }
        else
          { s with links := linksServed s.links .lane1 (unchangedFrame .lane1
              ((s.lane .lane0).shownFlags true (s.lane .lane1).display.alignFault) (s.lane .lane0).display.serial) } := by
  have same (l : LaneId) : (s.requested .lane1).lane l = s.lane l := rfl
  refine (if_pos (show (s.requested .lane1).follows .lane1 = true from following)).trans ?_
  unfold State.replyFollowing
  simp only [same, serial, Option.getD_some, laneFlags_eq]
  refine if_congr Iff.rfl ?_ (State.requested_send s .lane1 _)
  exact State.requested_send { s.setLane .lane1 _ with followedSerial := some _, followedStatus := some _ } .lane1 _

/-! ## The alignment check (R111, R112) -/

/-- A difference modulo a day, with the day added so that it is a natural number. -/
theorem cast_sub_mod {a b day : Nat} (below : b ≤ a + day) :
    (((a + day - b) % day : Nat) : Int) = ((a : Int) - b) % (day : Int) := by
  rw [Int.natCast_mod, Nat.cast_sub below, Nat.cast_add, add_sub_right_comm, Int.add_emod_right]

section Expected

variable (s : State) (l : LaneId)

theorem expectedTimecode_eq : ((expectedTimecode s.time (s.lane l).params.delay : Nat) : Int) = s.expectedWord l := by
  have below := Nat.mod_lt (s.lane l).params.delay s.time.rate.day_pos
  rw [expectedTimecode, cast_sub_mod (by omega), State.expectedWord, Int.natCast_mod, Int.sub_emod_emod]

theorem expectedTimecode_lt : expectedTimecode s.time (s.lane l).params.delay < s.time.rate.day :=
  Nat.mod_lt _ s.time.rate.day_pos

/-- How far a valid word lies from the expected value (R111). -/
theorem timecodeDistance_eq {v : Nat} (valid : v < s.time.rate.day) :
    (timecodeDistance s.time.rate.day v (expectedTimecode s.time (s.lane l).params.delay) : Int)
      = min (((v : Int) - s.expectedWord l) % (s.time.rate.day : Int))
          ((s.expectedWord l - v) % (s.time.rate.day : Int)) := by
  have expected := expectedTimecode_lt s l
  rw [timecodeDistance, Nat.cast_min, cast_sub_mod (by omega), cast_sub_mod (by omega), expectedTimecode_eq]

end Expected

theorem DisplaySet.alignMatch_eq (d : DisplaySet) :
    d.alignMatch = (d.evaluated true, d.alignFault && decide (2 ≤ d.matchRun)) := by
  unfold DisplaySet.alignMatch DisplaySet.evaluated
  cases fault : d.alignFault with
  | false => simp
  | true =>
    by_cases last : d.matchRun < 2
    · have early : d.matchRun + 1 < 3 := by omega
      simp [last, early]
    · have third : ¬ d.matchRun + 1 < 3 := by omega
      simp [last, third, Nat.not_lt.mp last]

theorem DisplaySet.alignMiss_eq (d : DisplaySet) :
    d.alignMiss = (d.evaluated false, !d.alignFault && decide (2 ≤ d.missRun)) := by
  have third : min 3 (d.missRun + 1) = 3 ↔ 2 ≤ d.missRun := by omega
  unfold DisplaySet.alignMiss DisplaySet.evaluated
  cases fault : d.alignFault <;> simp [third]

section Evaluation

variable (s : State) (l : LaneId)

/-- A valid word is judged as the model judges it (R111). -/
theorem State.wordMatches_some {v : Nat} (valid : v < s.time.rate.day) : s.wordMatches l (some v)
    = decide (timecodeDistance s.time.rate.day v (expectedTimecode s.time (s.lane l).params.delay) ≤ 2) := by
  have distance := timecodeDistance_eq s l valid
  unfold State.wordMatches
  dsimp only
  rw [← distance]
  exact decide_eq_decide.mpr (by omega)

/-- The value that ALIGN_FAULT reports (R112). -/
theorem State.alignFault_value (v : Nat) :
    (v + s.time.rate.day - expectedTimecode s.time (s.lane l).params.delay) % s.time.rate.day
      = (((v : Int) - s.expectedWord l) % (s.time.rate.day : Int)).toNat := by
  have expected := expectedTimecode_lt s l
  rw [← expectedTimecode_eq, ← cast_sub_mod (by omega), Int.toNat_natCast]

/-- The display set is replaced, with a report where one is due. -/
theorem State.noted_run (d : DisplaySet) (due : Prop) [Decidable due] (kind : ReportKind) (value : Option Nat) :
    (if due then
      (LaneRun.edit { lane := s.lane l, out := [] } fun ln => { ln with display := d }).emit (s.env l) kind none value
    else LaneRun.edit { lane := s.lane l, out := [] } fun ln => { ln with display := d })
      = { lane := { s.lane l with display := d }, out := if due then [s.note kind (some l) none value] else [] } := by
  split <;> rfl

/-- With the alignment check ON the word is evaluated, with its report (R111, R112). -/
theorem alignCheck_eq (value : Option Nat) (on : (s.lane l).params.align = true)
    (valid : ∀ v, value = some v → v < s.time.rate.day) :
    alignCheck s.time value (s.env l) { lane := s.lane l, out := [] }
      = { lane := { s.lane l with display := (s.lane l).display.evaluated (s.wordMatches l value) }
          out := s.evaluationReports l value } := by
  unfold alignCheck State.evaluationReports
  rw [if_pos on]
  cases value with
  | none =>
    have missed : s.wordMatches l none = false := rfl
    simp only [missed, DisplaySet.alignMiss_eq, Bool.and_eq_true, Bool.not_eq_true', decide_eq_true_eq,
      Bool.false_eq_true, if_false]
    exact s.noted_run l ..
  | some v =>
    simp only [← s.wordMatches_some l (valid v rfl), s.alignFault_value l, DisplaySet.alignMiss_eq,
      DisplaySet.alignMatch_eq, Bool.and_eq_true, Bool.not_eq_true', decide_eq_true_eq]
    cases s.wordMatches l (some v) with
    | true => exact s.noted_run l ..
    | false => exact s.noted_run l ..

theorem State.evaluationReports_length (value : Option Nat) : (s.evaluationReports l value).length ≤ 1 := by
  unfold State.evaluationReports
  split_ifs <;> simp

end Evaluation

/-! ## A request does not read the parameter behind the check (R111)

With the check ON a request is served as it is with the check OFF: no block that serves it reads the parameter. -/

/-- The alignment check of a lane set ON or OFF. -/
def Lane.withAlign (ln : Lane) (on : Bool) : Lane := { ln with params := { ln.params with align := on } }

def LaneRun.withAlign (r : LaneRun) (on : Bool) : LaneRun := r.edit (Lane.withAlign · on)

def State.withAlign (s : State) (l : LaneId) (on : Bool) : State := s.setLane l ((s.lane l).withAlign on)

/-- An act that neither reads nor writes the alignment check parameter. -/
def IgnoresAlign (act : LaneRun → LaneRun) : Prop := ∀ r on, act (r.withAlign on) = (act r).withAlign on

namespace IgnoresAlign

variable {f g : LaneRun → LaneRun}

theorem refl : IgnoresAlign fun r => r := fun _ _ => rfl

theorem comp (hf : IgnoresAlign f) (hg : IgnoresAlign g) : IgnoresAlign fun r => f (g r) :=
  fun r on => (congrArg f (hg r on)).trans (hf (g r) on)

/-- A choice by a condition that does not read the parameter. -/
theorem ite {c : LaneRun → Prop} [DecidablePred c] (same : ∀ r on, c (r.withAlign on) ↔ c r) (hf : IgnoresAlign f)
    (hg : IgnoresAlign g) : IgnoresAlign fun r => if c r then f r else g r := fun r on =>
  (if_congr (same r on) (hf r on) (hg r on)).trans (apply_ite (LaneRun.withAlign · on) (c r) (f r) (g r)).symm

end IgnoresAlign

section Ignored

variable (env : LaneEnv)

theorem compose_ignoresAlign : IgnoresAlign compose := by
  unfold compose
  refine .ite (fun _ _ => Iff.rfl) .refl fun r on => ?_
  have same : (r.withAlign on).lane.engine.queue = r.lane.engine.queue := rfl
  rw [same]
  split <;> rfl

theorem cutNamed_ignoresAlign (ref value : Nat) : IgnoresAlign (cutNamed env ref value) := by
  intro r on
  have same : (r.withAlign on).lane.standing ref = r.lane.standing ref := rfl
  unfold cutNamed
  rw [same]
  split
  · rfl
  · split <;> rfl

theorem cutIfLate_ignoresAlign (t : TimedUnit) : IgnoresAlign (cutIfLate env t) := by
  intro r on
  have same : (r.withAlign on).lane.engine.record = r.lane.engine.record := rfl
  unfold cutIfLate
  rw [same]
  split
  · rfl
  · next x _ =>
    exact IgnoresAlign.ite (c := fun r => r.lane.params.lamMax < lateness (some x) t.base) (fun _ _ => Iff.rfl)
      (cutNamed_ignoresAlign env _ _) .refl r on

theorem discardHead_ignoresAlign (now : Nat) : IgnoresAlign (discardHead env now) := by
  intro r on
  have same : (r.withAlign on).lane.engine.queue = r.lane.engine.queue := rfl
  unfold discardHead
  rw [same]
  split <;> rfl

theorem appendTimed_ignoresAlign (now : Nat) (t : TimedUnit) : IgnoresAlign (appendTimed env now t) := by
  have makesRoom : IgnoresAlign fun r =>
      if Config.queueCapacity ≤ r.lane.engine.queue.length then discardHead env now r else r :=
    .ite (fun _ _ => Iff.rfl) (discardHead_ignoresAlign env now) .refl
  intro r on
  exact congrArg
    (LaneRun.edit · fun ln => { ln with engine := { ln.engine with queue := ln.engine.queue ++ [t] } })
    (makesRoom (r.edit fun ln => { ln with engine := { ln.engine with
      record := some { release := t.release, minimum := t.minimum, ref := t.ref }
      level := t.level
      nextRef := t.ref + 1 } }) on)

theorem joinScriptWords_ignoresAlign (u : CaptionUnit) : IgnoresAlign (joinScriptWords u) := by
  intro r on
  unfold joinScriptWords
  split <;> rfl

theorem timeUnit_ignoresAlign (now : Nat) (u : CaptionUnit) : IgnoresAlign (timeUnit env now u) := fun r on =>
  let t := timedUnit r.lane.params env.rate r.lane.engine now u
  (compose_ignoresAlign.comp ((joinScriptWords_ignoresAlign u).comp
    ((appendTimed_ignoresAlign env now t).comp (cutIfLate_ignoresAlign env t)))) r on

theorem exhaust_ignoresAlign (segment : Nat) : IgnoresAlign (exhaust env segment) := by
  unfold exhaust
  exact .ite (fun _ _ => Iff.rfl) (fun _ _ => rfl) .refl

theorem timeDeckUnit_ignoresAlign (segment : Nat) (u : CaptionUnit) (onset : Nat) :
    IgnoresAlign (timeDeckUnit env segment u onset) :=
  (exhaust_ignoresAlign env segment).comp ((timeUnit_ignoresAlign env env.sfc _).comp
    (g := fun r => r.editDeck fun d =>
      { d with units := d.units.drop 1, nextIndex := d.nextIndex.map (· + 1), onsets := d.onsets.drop 1 })
    fun _ _ => rfl)

theorem feedUpTo_ignoresAlign (n : Nat) : IgnoresAlign (feedUpTo env n) := by
  induction n with
  | zero => exact .refl
  | succ n ih =>
    intro r on
    have same : (r.withAlign on).lane.deck = r.lane.deck := rfl
    unfold feedUpTo
    rw [same]
    split
    · exact IgnoresAlign.ite (c := fun r => r.lane.engine.queue.length < Config.queueCapacity) (fun _ _ => Iff.rfl)
        (ih.comp (timeDeckUnit_ignoresAlign env _ _ _)) .refl r on
    · rfl

theorem composeAndFeed_ignoresAlign : IgnoresAlign (composeAndFeed env) := by
  have feeds : IgnoresAlign (feed env) := fun r on => feedUpTo_ignoresAlign env r.lane.deck.units.length r on
  exact feeds.comp compose_ignoresAlign

/-- The release, the blank test and the composition do not read the alignment check (R99 to R101, R111). -/
theorem serveImage_ignoresAlign : IgnoresAlign (serveImage env) := by
  have blanks : IgnoresAlign blankAir := fun r on => by
    rw [blankAir_eq, blankAir_eq]
    rfl
  unfold serveImage
  exact .ite (fun _ _ => Iff.rfl) ((composeAndFeed_ignoresAlign env).comp (g := releaseNext env) fun _ _ => rfl)
    (.ite (fun _ _ => Iff.rfl) blanks .refl)

end Ignored

section Part

variable (s : State) (l : LaneId) (on : Bool)

theorem State.withAlign_lane : (s.withAlign l on).lane l = (s.lane l).withAlign on := State.lane_setLane_self ..

theorem State.withAlign_withAlign (off : Bool) : (s.withAlign l off).withAlign l on = s.withAlign l on := by
  rw [State.withAlign, State.withAlign_lane, State.withAlign, State.setLane_setLane]
  rfl

theorem State.withAlign_of_same (same : (s.lane l).params.align = on) : s.withAlign l on = s := by
  subst same
  exact s.setLane_lane l

theorem State.withAlign_setLane (x : Lane) :
    (s.withAlign l on).setLane l (x.withAlign on) = (s.setLane l x).withAlign l on := by
  simp only [State.withAlign, State.setLane_setLane, State.lane_setLane_self]

theorem State.withAlign_queueReports (rs : List Report) :
    (s.withAlign l on).queueReports rs = (s.queueReports rs).withAlign l on := by
  rw [State.withAlign, State.queueReports_setLane, State.withAlign, State.queueReports_lane]

theorem State.withAlign_send (k : Link) (f : TxFrame) : (s.withAlign l on).send k f = (s.send k f).withAlign l on := rfl

theorem State.onLane_withAlign {act : LaneEnv → LaneRun → LaneRun} (ignores : IgnoresAlign (act (s.env l))) :
    (s.withAlign l on).onLane l act = (s.onLane l act).withAlign l on := by
  have run : act ((s.withAlign l on).env l) { lane := (s.withAlign l on).lane l, out := [] }
      = (act (s.env l) { lane := s.lane l, out := [] }).withAlign on := by
    rw [State.withAlign_lane]
    exact ignores { lane := s.lane l, out := [] } on
  unfold State.onLane
  rw [run]
  exact (congrArg (State.queueReports · _) (s.withAlign_setLane l on _)).trans (State.withAlign_queueReports ..)

theorem State.replyOwn_withAlign (everyFrame : Bool) :
    (s.withAlign l on).replyOwn l everyFrame = (s.replyOwn l everyFrame).withAlign l on := by
  unfold State.replyOwn
  simp only [State.withAlign_lane]
  refine (if_congr Iff.rfl ?_ ?_).trans (apply_ite (State.withAlign · l on) _ _ _).symm
  · rw [← State.withAlign_send, ← State.withAlign_setLane]
    rfl
  · rfl

theorem State.replyFollowing_withAlign :
    (s.withAlign .lane1 on).replyFollowing = s.replyFollowing.withAlign .lane1 on := by
  have other : (s.withAlign .lane1 on).lane .lane0 = s.lane .lane0 := rfl
  unfold State.replyFollowing
  simp only [State.withAlign_lane, other]
  refine (if_congr Iff.rfl ?_ ?_).trans (apply_ite (State.withAlign · .lane1 on) _ _ _).symm
  · rw [← State.withAlign_send]
    rfl
  · rfl

theorem State.served_withAlign : (s.withAlign l on).served l = (s.served l).withAlign l on := by
  have runs : (s.withAlign l on).running l = s.running l := by
    rw [State.running, State.withAlign_lane]
    rfl
  have follows : (s.withAlign l on).follows l = s.follows l := by cases l <;> rfl
  have params (t : State) : ((t.withAlign l on).lane l).params.reply = (t.lane l).params.reply := by
    rw [State.withAlign_lane]
    rfl
  unfold State.served
  simp only [runs, follows, s.onLane_withAlign l on (serveImage_ignoresAlign _), params, State.replyOwn_withAlign]
  split
  · next following =>
    cases l with
    | lane0 => exact absurd following Bool.false_ne_true
    | lane1 => exact s.replyFollowing_withAlign on
  · exact (apply_ite (State.withAlign · l on) _ _ _).symm

end Part

/-! ## A request on a lane with the alignment check ON (R111, R112) -/

/-- The part after a request's word is evaluated (R112). -/
def State.evaluated (s : State) (l : LaneId) (value : Option Nat) : State :=
  { s.setLane l { s.lane l with display := (s.lane l).display.evaluated (s.wordMatches l value) } with
    reports := s.reports ++ s.evaluationReports l value }

section Aligned

variable (s : State) (l : LaneId)

theorem State.evaluated_lane (value : Option Nat) : (s.evaluated l value).lane l
    = { s.lane l with display := (s.lane l).display.evaluated (s.wordMatches l value) } :=
  State.lane_setLane_self s l _

/-- The part of Safety's words, in which the evaluation is done and the check OFF. -/
theorem State.evaluated_withAlign (value : Option Nat) (on : Bool) : (s.evaluated l value).withAlign l on
    = { s.setLane l { s.lane l with
          params := { (s.lane l).params with align := on }
          display := (s.lane l).display.evaluated (s.wordMatches l value) } with
        reports := s.reports ++ s.evaluationReports l value } := by
  rw [State.withAlign, State.evaluated_lane]
  exact congrArg (fun t : State => { t with reports := s.reports ++ s.evaluationReports l value })
    (s.setLane_setLane l _ _)

/-- With the check ON the request is served as with the check OFF (R104, R111). -/
theorem State.served_evaluated (value : Option Nat) (on : (s.lane l).params.align = true) :
    ((s.evaluated l value).requested l).served l
      = ((((s.evaluated l value).withAlign l false).requested l).served l).withAlign l true := by
  have kept : (((s.evaluated l value).requested l).lane l).params.align = true :=
    (congrArg (fun ln => ln.params.align) (s.evaluated_lane l value)).trans on
  have off : ((s.evaluated l value).withAlign l false).requested l
      = ((s.evaluated l value).requested l).withAlign l false := rfl
  rw [off, ← State.served_withAlign, State.withAlign_withAlign, State.withAlign_of_same _ l true kept]

variable (h m n f : Byte) (room : (s.link (.inserter l)).waiting.length < 2)
  (on : (s.lane l).params.align = true) (report : s.canReport)

include room on report

/-- The word is evaluated, and then the request is served (R104). -/
theorem exec_inserterRequest_of_aligned : exec (.inserterRequest l [h, m, n, f]) s = .next (((s.evaluated l
    (timecodeFrames { hh := h, mm := m, ss := n, ff := f } s.time.rate)).requested l).served l) := by
  have length := s.evaluationReports_length l (timecodeFrames { hh := h, mm := m, ss := n, ff := f } s.time.rate)
  have free : s.reports.length < 32 := report
  have checked := State.onLane_of_run (s.requested l) l
    (alignCheck_eq s l _ on fun v valid => timecodeFrames_lt { hh := h, mm := m, ss := n, ff := f } _ v valid)
    (show s.reports.length + _ ≤ 32 by omega)
  rw [exec_inserterRequest_of_room s l h m n f room, State.takeRequest_eq]
  exact congrArg (fun t : State => Host.Outcome.next (t.served l)) checked

/-- A request is answered as the part would answer it that has evaluated the word and has the check OFF. -/
theorem exec_inserterRequest_as_unaligned : ∃ t,
    exec (.inserterRequest l [h, m, n, f])
        ((s.evaluated l (timecodeFrames { hh := h, mm := m, ss := n, ff := f } s.time.rate)).withAlign l false) = .next t
      ∧ exec (.inserterRequest l [h, m, n, f]) s = .next (t.withAlign l true) := by
  refine ⟨_, exec_inserterRequest_of_unaligned _ l h m n f room (by rw [State.withAlign_lane]; rfl), ?_⟩
  rw [exec_inserterRequest_of_aligned s l h m n f room on report, State.served_evaluated s l _ on]

end Aligned

/-! ## The statement -/

/-- Settles O59: the word is evaluated where the check is ON, and behind it a RUNNING lane's image is released, blanked or
left, and a reply made of it; a STOPPED lane's and a FOLLOWING lane's reply is of the image as it stands. -/
theorem inserterRequestIsServed : Obligations.InserterRequestIsServed := by
  unfold Obligations.InserterRequestIsServed
  refine ⟨fun s l p full => exec_inserterRequest_of_full s l p full, fun s l h m n f room =>
    ⟨fun off away => ?_, fun off lane following serial => ?_, fun on report => ?_⟩⟩
  · have own := s.follows_of_not l away
    rw [exec_inserterRequest_of_unaligned s l h m n f room off]
    refine ⟨fun running => ⟨fun x free unheld ready release due feeds => ?_, fun free shows stood waits => ?_,
      fun still serial => ?_⟩, fun stopped serial => ?_⟩
    · obtain ⟨air, serial, changed, fault, flags⟩ := (s.lane l).released_shown s.time.sfc
      have run := serveImage_of_due (s.env l) { lane := s.lane l, out := [] } free unheld ready release due feeds
      rw [s.served_of_running l own (ln := (s.lane l).released s.time.sfc) running run (by rw [air, serial]; rfl),
        s.repliedOwn_of_changed l _ _ changed]
      simp only [air, serial, fault, flags]
    · have run := serveImage_of_stood (s.env l) { lane := s.lane l, out := [] } free shows stood waits
      rw [s.served_of_running l own running run rfl, s.repliedOwn_of_changed l _ _ rfl]
      rfl
    · have run := serveImage_of_still (s.env l) { lane := s.lane l, out := [] } still
      rw [s.served_of_running l own running run serial]
      simp only [State.repliedOwn, decide_eq_true_eq, State.setLane_lane]
    · rw [s.served_of_stopped l own stopped serial]
      simp only [State.repliedOwn, Bool.false_eq_true, or_false, State.setLane_lane]
  · subst lane
    rw [exec_inserterRequest_of_unaligned s .lane1 h m n f room off, s.served_of_following following serial]
    rfl
  · dsimp only
    rw [← State.evaluated_withAlign]
    exact exec_inserterRequest_as_unaligned s l h m n f room on report

end Sys2Proof.Machine
end

section
/-! PROOF. Frames on the line (R172 to R177): a receiver between frames finds the frame that was sent, the address
filter hands it on, and the rows that stand for good frames are what follows (O14). -/

namespace Sys2Proof.Machine

/-! ## The receiver (R172 to R175) -/

theorem onLine_append (as bs : List Byte) : onLine (as ++ bs) = onLine as ++ onLine bs := List.map_append ..

/-- A line taken in two runs. -/
theorem Receiver.run_append (r : Receiver) (as bs : List LineByte) :
    r.run (as ++ bs) = (((r.run as).1.run bs).1, (r.run as).2 ++ ((r.run as).1.run bs).2) := by
  induction as generalizing r with
  | nil => rfl
  | cons a as ih => simp only [List.cons_append, Receiver.run, ih, List.append_assoc]

/-- The receiver in a frame, behind these body bytes and no escape. -/
def Receiver.within (body : List Byte) : Receiver := { mode := .inFrame, body := body, escape := false }

/-- The receiver in a frame, behind these body bytes and an escape. -/
def Receiver.escaped (body : List Byte) : Receiver := { mode := .inFrame, body := body, escape := true }

/-- A body that is not full takes one more byte (R174). -/
theorem Receiver.add_of_room (r : Receiver) (b : Byte) (room : r.body.length < 244) :
    r.add b = (Receiver.within (r.body ++ [b]), none) := if_neg (Nat.not_lt.mpr room)

/-- A stuffed byte is the byte itself, behind an escape and changed where it is a flag or an escape (R172, R173). -/
theorem Receiver.run_stuffByte (body : List Byte) (b : Byte) (room : body.length < 244) :
    (Receiver.within body).run (onLine (stuffByte b)) = (Receiver.within (body ++ [b]), []) := by
  by_cases special : b = flagByte ∨ b = escapeByte
  · have escape : (Receiver.within body).take { value := escapeByte, stop := true }
        = (Receiver.escaped body, none) := rfl
    have restored : (Receiver.escaped body).take { value := b ^^^ 0x40, stop := true }
        = (Receiver.within (body ++ [b]), none) := by
      refine Eq.trans ?_ ((Receiver.escaped body).add_of_room b room)
      obtain rfl | rfl := special <;> rfl
    rw [stuffByte, if_pos special]
    simp only [onLine, List.map_cons, List.map_nil, Receiver.run, escape, restored]
    rfl
  · obtain ⟨noFlag, noEscape⟩ := not_or.mp special
    have added : (Receiver.within body).take { value := b, stop := true } = (Receiver.within (body ++ [b]), none) := by
      refine Eq.trans ?_ ((Receiver.within body).add_of_room b room)
      simp only [Receiver.take, Receiver.within, noFlag, noEscape, and_false, if_false, not_true_eq_false,
        Bool.false_eq_true]
    rw [stuffByte, if_neg special]
    simp only [onLine, List.map_cons, List.map_nil, Receiver.run, added]
    rfl

theorem Receiver.run_stuff (body bs : List Byte) (room : body.length + bs.length ≤ 244) :
    (Receiver.within body).run (onLine (stuff bs)) = (Receiver.within (body ++ bs), []) := by
  induction bs generalizing body with
  | nil => rw [List.append_nil]; rfl
  | cons b bs ih =>
    rw [List.length_cons] at room
    rw [stuff, onLine_append, Receiver.run_append, Receiver.run_stuffByte body b (by omega),
      ih (body ++ [b]) (by rw [List.length_append, List.length_singleton]; omega), List.append_assoc]
    rfl

/-- The body of a frame passes the check of its receiver (R174, R175). -/
theorem judgeBody_frameBody (address kind : Byte) (p : List Byte) :
    judgeBody (frameBody address kind p) = .frame address kind p := by
  have length : (frameBody address kind p).length - 2 = (address :: kind :: p).length := by
    simp [frameBody, checkBytes]
  unfold judgeBody
  rw [length, frameBody, List.take_left, List.drop_left]
  exact if_pos rfl

/-- The flag that opens a frame, at a receiver between frames (R173). -/
theorem Receiver.take_flag_of_between (r : Receiver) (between : r.betweenFrames = true) :
    r.take { value := flagByte, stop := true } = (Receiver.inFrame, none) := by
  obtain ⟨mode, body, escape⟩ := r
  cases mode with
  | hunting | discarding => rfl
  | inFrame =>
    obtain ⟨empty, unescaped⟩ : body = [] ∧ escape = false := by simpa [Receiver.betweenFrames] using between
    subst empty unescaped
    rfl

/-- The flag that closes a frame (R173). -/
theorem Receiver.run_closing (body : List Byte) (some_byte : body ≠ []) :
    (Receiver.within body).run (onLine [flagByte]) = (Receiver.inFrame, [judgeBody body]) := by
  simp [onLine, Receiver.run, Receiver.take, Receiver.flag, Receiver.within, some_byte]

/-- A receiver between frames finds the frame that was sent (R172 to R175). -/
theorem Receiver.run_lineFrame (r : Receiver) (address kind : Byte) (p : List Byte) (between : r.betweenFrames = true)
    (fits : p.length ≤ 240) :
    r.run (onLine (lineFrame address kind p)) = (Receiver.inFrame, [.frame address kind p]) := by
  have taken : Receiver.inFrame.run (onLine (stuff (frameBody address kind p)))
      = (Receiver.within (frameBody address kind p), []) :=
    Receiver.run_stuff [] _ (by simp [frameBody, checkBytes]; omega)
  have closed := Receiver.run_closing (frameBody address kind p) (List.cons_ne_nil _ _)
  have opened : r.run (onLine (lineFrame address kind p))
      = Receiver.inFrame.run (onLine (stuff (frameBody address kind p)) ++ onLine [flagByte]) := by
    rw [← onLine_append]
    simp only [lineFrame, onLine, List.cons_append, List.map_cons, Receiver.run, r.take_flag_of_between between]
    rfl
  rw [opened, Receiver.run_append, taken, closed, judgeBody_frameBody]
  rfl

/-! ## The address filter (R176, R177) -/

section Filter

variable (s : State) (k : Link) (kind : Byte) (p : List Byte) (between : (s.link k).rx.betweenFrames = true)
  (fits : p.length ≤ 240)

include between fits

/-- The line bytes of a frame leave the link between frames, and the frame comes to the address filter. -/
theorem State.receive_lineFrame (address : Byte) : s.receive k (onLine (lineFrame address kind p))
    = (s.frameClosed k).filterFrame k address kind p := by
  rw [State.receive, Receiver.run_lineFrame _ address kind p between fits]
  rfl

/-- A frame addressed to the part goes to its link's consumer (R177). -/
theorem State.receive_addressed : s.receive k (onLine (lineFrame s.addressByte kind p))
    = (s.frameClosed k).deliver k kind p := by
  rw [State.receive_lineFrame s k kind p between fits]
  exact if_pos rfl

end Filter

/-- A broadcast cue is taken on link A alone, by a part whose own address is another (R176). -/
theorem State.receive_broadcastCue (s : State) (p : List Byte) (between : (s.link .automation).rx.betweenFrames = true)
    (fits : p.length ≤ 240) (other : s.addressByte ≠ broadcastAddress) :
    s.receive .automation (onLine (lineFrame broadcastAddress cueFrameKind p))
      = (s.frameClosed .automation).cueFrame true p := by
  rw [State.receive_lineFrame s .automation cueFrameKind p between fits, State.filterFrame,
    if_neg (show ¬ broadcastAddress = (s.frameClosed .automation).addressByte from other.symm), if_pos ⟨rfl, rfl⟩,
    if_pos rfl]

/-! ## The rows -/

/-- Each request row is the request of its kind, as link A takes a frame of that kind (R183). -/
theorem exec_requestTable {e : Byte × (List Byte → Instr)} (mem : e ∈ requestTable) :
    ∃ handle, requestHandler e.1 = some handle ∧ e.1 ≠ cueFrameKind
      ∧ ∀ p s, exec (e.2 p) s = .next (requestRow e.1 p handle s) := by
  unfold requestTable at mem
  fin_cases mem <;> exact ⟨_, rfl, by decide, fun _ _ => rfl⟩

/-- A frame of a request's kind, addressed to the part on link A, is that request (R184). -/
theorem State.automationFrame_of_handler (s : State) (kind : Byte) (p : List Byte)
    (handle : List Byte → State → State × Reply) (known : requestHandler kind = some handle)
    (request : kind ≠ cueFrameKind) : s.automationFrame kind p = s.request kind p handle := by
  rw [State.automationFrame, if_neg request, known]

/-- The kind byte of a cue row's frame is the code of its cue (R182). -/
theorem cueTable_code {e : Byte × CueKind × (Bool → List Byte → Instr)} (mem : e ∈ cueTable) :
    BitVec.ofNat 8 e.2.1.code = e.1 := by
  unfold cueTable at mem
  fin_cases mem <;> rfl

/-- Settles O14: the receiver finds the frame, the filter hands it to the consumer of its link, and that is the row. -/
theorem rowsAgreeWithLine : Obligations.RowsAgreeWithLine := by
  unfold Obligations.RowsAgreeWithLine
  intro s kind p fits
  refine ⟨fun w between => ?_, fun l between => ?_,
    fun between => ⟨?_, fun e mem => ?_, fun rest e mem => ⟨?_, fun other => ?_⟩⟩⟩
  · have line (kind : Byte) := s.receive_addressed (.writer w) kind p between fits
    refine ⟨?_, ?_, ?_, ?_, ?_, ?_, ?_⟩ <;> rw [line] <;> rfl
  · have line (kind : Byte) := s.receive_addressed (.inserter l) kind p between fits
    refine ⟨?_, ?_⟩ <;> rw [line] <;> rfl
  · rw [s.receive_addressed .automation kind p between fits]
    rfl
  · obtain ⟨handle, known, request, row⟩ := exec_requestTable mem
    rw [row, s.receive_addressed .automation e.1 p between fits]
    exact congrArg _ ((s.frameClosed .automation).automationFrame_of_handler e.1 p handle known request).symm
  · rw [exec_cueTable e mem, cueRow, cueTable_code mem,
      s.receive_addressed .automation 0x40 (e.1 :: p) between (Nat.succ_le_succ rest)]
    rfl
  · rw [exec_cueTable e mem, cueRow, cueTable_code mem]
    exact congrArg _ (s.receive_broadcastCue (e.1 :: p) between (Nat.succ_le_succ rest) other).symm

end Sys2Proof.Machine
end

section
/-! PROOF. Link A's requests around and besides their fields: frames held back or refused by kind or length (O35), POLL
(O55) and CLEAR-COUNTERS (O57). -/

namespace Sys2Proof.Machine

/-! ## Frames held back (R180) -/

/-- A frame that finds four replies unsent is not handed on, whatever it asks. -/
theorem State.serve_of_full (s : State) (kind : Byte) (lengthOk : Bool) (p : List Byte)
    (handle : List Byte → State → State × Reply) (full : s.repliesFull .automation = true) :
    s.serve kind lengthOk p handle = s := if_pos full

/-- A frame of any kind that finds four replies unsent is only counted and restarts supervision. -/
theorem exec_automationFrameRefused_of_full (s : State) (kind : Byte) (p : List Byte)
    (full : 4 ≤ s.links.automation.waiting.length) : exec (.automationFrameRefused kind p) s = .next s.heard := by
  have held : s.heard.repliesFull .automation = true := s.repliesFull_heard.trans (decide_eq_true full)
  refine congrArg Host.Outcome.next ?_
  unfold State.automationFrame
  split
  · rw [State.cueFrame, if_neg Bool.false_ne_true, State.automationGood_frameClosed]
    exact s.heard.serve_of_full _ _ _ _ held
  · split
    · rw [State.request, State.automationGood_frameClosed]
      exact s.heard.serve_of_full _ _ _ _ held
    · rw [State.refuseKind, State.automationGood_frameClosed]
      exact if_pos held

/-! ## Frames of an unknown kind (R184) -/

/-- A kind that is not in the table has no handler (R183). -/
theorem requestHandler_of_unknown (kind : Byte) (unknown : ¬ (0x20 ≤ kind.toNat ∧ kind.toNat ≤ 0x36)) :
    requestHandler kind = none := by
  unfold requestHandler
  split
  iterate 23 omega
  rfl

/-- A frame of an unknown kind that finds room for its reply is refused with BAD_KIND. -/
theorem exec_automationFrameRefused_of_unknown (s : State) (kind : Byte) (p : List Byte) (room : s.canAnswer)
    (unknown : isAutomationKind kind = false) :
    exec (.automationFrameRefused kind p) s = .next (s.answered { kind := 0x51, payload := [1, kind] }) := by
  obtain ⟨noCue, noRequest⟩ := Bool.or_eq_false_iff.mp unknown
  have free : ¬ s.heard.repliesFull .automation = true := by
    rw [State.repliesFull_heard, decide_eq_true_eq]
    exact Nat.not_le.mpr room
  refine congrArg Host.Outcome.next ?_
  rw [State.automationFrame, if_neg (of_decide_eq_false noCue),
    requestHandler_of_unknown kind (of_decide_eq_false noRequest)]
  dsimp only
  rw [State.refuseKind, State.automationGood_frameClosed]
  exact if_neg free

/-- Settles O35: each frame by whether link A has room, and then by its kind and its length. -/
theorem heldBackAndRefusedFrames : Obligations.HeldBackAndRefusedFrames := by
  unfold Obligations.HeldBackAndRefusedFrames
  intro s p
  refine ⟨fun full => ⟨fun e mem => ?_, fun kind => exec_automationFrameRefused_of_full s kind p full⟩,
    fun room => ⟨fun kind => exec_automationFrameRefused_of_unknown s kind p room, fun e mem bad => ?_⟩⟩
  · obtain ⟨handle, -, -, row⟩ := exec_requestTable mem
    rw [row, requestRow_of_full e.1 p handle s full]
  · obtain ⟨handle, -, -, row⟩ := exec_requestTable mem
    rw [row, requestRow_of_badLength e.1 p handle s room bad, State.heard_answer]
    rfl

/-! ## POLL (R188) -/

/-- The POLL reply of the oldest reports, at most four. -/
theorem pollPayload_take (overflow : Bool) (rs : List Report) : pollPayload overflow (rs.take 4)
    = [if overflow then 1 else 0, BitVec.ofNat 8 (min 4 rs.length)] ++ (rs.take 4).flatMap Report.bytes := by
  rw [pollPayload, List.length_take]
  cases overflow <;> rfl

/-- Settles O55: the reply is made of the reports that leave the queue. -/
theorem pollReturnsTheOldest : Obligations.PollReturnsTheOldest := by
  unfold Obligations.PollReturnsTheOldest
  intro s room
  rw [← pollPayload_take]
  exact congrArg Host.Outcome.next (requestRow_of_room 0x33 [] pollRequest s room rfl)

/-! ## CLEAR-COUNTERS (R190) -/

/-- The counters fall to 0 alike before and after a reply is made. -/
theorem State.zeroCounters_answer (s : State) (f : TxFrame) :
    s.heard.zeroCounters.send .automation f = (s.answered f).zeroCounters := rfl

/-- Settles O57: the part that is counted and answered, with every counter at 0. -/
theorem clearCountersZeroes : Obligations.ClearCountersZeroes := by
  unfold Obligations.ClearCountersZeroes
  intro s room
  have acked := requestRow_of_ack 0x35 [] clearCountersRequest s s.heard.zeroCounters none room rfl rfl
  rw [State.zeroCounters_answer] at acked
  exact ⟨(s.answered (ackOf 0x35 none)).zeroCounters, congrArg Host.Outcome.next acked, rfl,
    (s.answered (ackOf 0x35 none)).zeroCounters_lane, (s.answered (ackOf 0x35 none)).zeroCounters_writer,
    (s.answered (ackOf 0x35 none)).zeroCounters_link⟩

end Sys2Proof.Machine
end

section
/-! PROOF. FREEZE and HOLD under any mask (R120, R121, R123, R124) and END (R132, R168): O46 and O52. -/

namespace Sys2Proof.Machine

/-! ## FREEZE and HOLD -/

/-- A lane that a cue reaches: addressed by the mask and RUNNING (R120, R121). -/
theorem State.onReached_get (s : State) (mask : Byte) (f : Lane → Lane) (l : LaneId) :
    (s.onReached mask f).get l
      = if (mask = 0 ∨ mask &&& BitVec.ofNat 8 (s.lane l).params.group ≠ 0) ∧ (s.lane l).state = .running then
          f (s.lane l)
        else s.lane l := by
  cases l <;> rfl

section Edits

variable (s : State) {c : Cue} {f : Lane → Lane} (own : c.kind ≠ .join ∧ c.kind ≠ .split)
  (edits : ∀ following env r, laneCue following c env r = r.edit f)

include own edits

/-- A cue that only changes the lanes it reaches, on one lane. -/
theorem State.cueIfAddressed_of_edit (l : LaneId) :
    s.cueIfAddressed c l = s.setLane l ((s.onReached c.mask f).get l) := by
  have edited : s.onLane l (laneCue (s.follows l) c) = s.setLane l (f (s.lane l)) := by
    rw [State.onLane_of_quiet s l _ (by rw [edits]; rfl), edits]
    rfl
  have acts : s.cueOnLane c l = if (s.lane l).state = .running then s.setLane l (f (s.lane l)) else s := by
    unfold State.cueOnLane
    split
    · next join => exact absurd join own.1
    · next split => exact absurd split own.2
    · simp only [State.running, decide_eq_true_eq, edited]
  have addressed : s.addressed c.mask l = true
      ↔ c.mask = 0 ∨ c.mask &&& BitVec.ofNat 8 (s.lane l).params.group ≠ 0 := by simp [State.addressed]
  rw [State.cueIfAddressed, acts, State.onReached_get]
  simp only [addressed]
  by_cases aimed : c.mask = 0 ∨ c.mask &&& BitVec.ofNat 8 (s.lane l).params.group ≠ 0
  · by_cases running : (s.lane l).state = .running
    · rw [if_pos aimed, if_pos running, if_pos ⟨aimed, running⟩]
    · rw [if_pos aimed, if_neg running, if_neg fun reached => running reached.2, State.setLane_lane]
  · rw [if_neg aimed, if_neg fun reached => aimed reached.1, State.setLane_lane]

/-- On both lanes: what it does on lane 0 does not decide whether it reaches lane 1. -/
theorem State.executeCue_of_edit : s.executeCue c = { s with lanes := s.onReached c.mask f } := by
  rw [State.executeCue, State.cueIfAddressed_of_edit _ own edits, State.cueIfAddressed_of_edit _ own edits]
  rfl

end Edits

/-- A cue row whose cue only changes the lanes it reaches. -/
theorem exec_cue_of_edit {e : Byte × CueKind × (Bool → List Byte → Instr)} (mem : e ∈ cueTable) (s : State)
    (broadcast : Bool) (mask tag segment a b c : Byte) (room : broadcast = true ∨ s.canAnswer)
    (good : e.2.1 = .take → segment.toNat ≤ 63) (own : e.2.1 ≠ .join ∧ e.2.1 ≠ .split) {f : Lane → Lane}
    (edits : ∀ following env r, laneCue following (immediate e.2.1 mask tag segment) env r = r.edit f) :
    exec (e.2.2 broadcast (immediateCue mask tag segment a b c)) s
      = .next { s.cueHeard broadcast with lanes := s.onReached mask f } := by
  rw [exec_cue_immediate mem s broadcast mask tag segment a b c room good, State.executeCue_of_edit s.heard own edits]
  cases broadcast <;> rfl

theorem mem_cueTable_freeze : (1, CueKind.freeze, Instr.freeze) ∈ cueTable := by simp [cueTable]
theorem mem_cueTable_hold : (3, CueKind.hold, Instr.hold) ∈ cueTable := by simp [cueTable]

/-- Settles O46: each of the two is one change of the lanes it reaches. -/
theorem freezeAndHold : Obligations.FreezeAndHold := by
  unfold Obligations.FreezeAndHold
  intro s broadcast mask tag segment a b c room
  exact ⟨exec_cue_of_edit mem_cueTable_freeze s broadcast mask tag segment a b c room nofun ⟨nofun, nofun⟩
      fun _ _ _ => rfl,
    exec_cue_of_edit mem_cueTable_hold s broadcast mask tag segment a b c room nofun ⟨nofun, nofun⟩
      fun _ _ _ => rfl⟩

/-! ## END -/

section End

variable (env : LaneEnv) (r : LaneRun) (tag : Nat)

/-- An END of a PLAYING deck makes the deck EMPTY and the source LIVE, without a report (R168). -/
theorem laneEnd_of_playing {g : Nat} (playing : r.lane.deck.state = .playing g) : laneEnd tag env r
    = r.edit fun ln => { ln with source := .live, deck := bareDeck .empty ln.deck.pendingTake } := by
  simp only [laneEnd, endPlaying, playing]
  rfl

/-- An END of a deck in preparation drops its pending take (R163, R168). -/
theorem laneEnd_of_preparing {g : Nat} {take : PendingTake} (preparing : r.lane.deck.state = .preparing g)
    (held : r.lane.deck.pendingTake = some take) : laneEnd tag env r
      = (r.editDeck fun d => { d with pendingTake := none }).emit env .takeAbandoned none (some take.tag) := by
  simp only [laneEnd, dropTake, preparing, held]

/-- An END is refused where no deck plays and none is in preparation with a take (R132, R168). -/
theorem laneEnd_of_other (idle : ∀ g, r.lane.deck.state ≠ .playing g)
    (free : ∀ g take, r.lane.deck.state = .preparing g → r.lane.deck.pendingTake ≠ some take) :
    laneEnd tag env r = refuseCue env .takeRefused tag r := by
  unfold laneEnd
  split
  · next g playing => exact absurd playing (idle g)
  · next g take preparing held => exact absurd held (free g take preparing)
  · rfl

end End

theorem mem_cueTable_finish : (11, CueKind.finish, Instr.endCue) ∈ cueTable := by simp [cueTable]

/-- Settles O52: the cases are those of the deck's state and its pending take. -/
theorem endActsOnTheDeck : Obligations.EndActsOnTheDeck := by
  unfold Obligations.EndActsOnTheDeck
  intro s l broadcast mask tag segment a b c only running room report
  split
  · next g playing =>
    exact exec_cue_of_quiet only running room mem_cueTable_finish nofun ⟨nofun, nofun⟩
      (laneEnd_of_playing (s.env l) { lane := s.lane l, out := [] } tag.toNat playing)
  · next g take preparing held =>
    exact exec_cue_of_run only running room mem_cueTable_finish nofun ⟨nofun, nofun⟩
      (laneEnd_of_preparing (s.env l) { lane := s.lane l, out := [] } tag.toNat preparing held) report
  · next idle free =>
    exact exec_cue_of_refused only running room mem_cueTable_finish nofun ⟨nofun, nofun⟩
      (laneEnd_of_other (s.env l) { lane := s.lane l, out := [] } tag.toNat idle free) report

end Sys2Proof.Machine
end

section
/-! PROOF. What every act of a lane's blocks keeps of its deck: none but the store's own acts begins or ends a preparation,
and the source is SCRIPT exactly while the deck plays (R150, R157, R161 to R169). -/

namespace Sys2Proof.Machine

/-- A lane's source is SCRIPT exactly while its deck plays (R162, R167 to R169). -/
def Lane.Sourced (ln : Lane) : Prop := ln.source = .script ↔ ∃ g, ln.deck.state = .playing g

/-- A deck that is not PREPARING. -/
def Lane.Unprepared (ln : Lane) : Prop := ∀ g, ln.deck.state ≠ .preparing g

theorem Lane.unprepared_of_state {ln : Lane} {d : DeckState} (state : ln.deck.state = d) (other : ∀ g, d ≠ .preparing g) :
    ln.Unprepared := fun g is => other g (state.symm.trans is)

/-- An act neither begins nor ends a preparation, and keeps the source in agreement with the deck. -/
structure Lane.Agrees (a b : Lane) : Prop where
  preparing : ∀ g, b.deck.state = .preparing g ↔ a.deck.state = .preparing g
  sourced : a.Sourced → b.Sourced

theorem Lane.Agrees.refl (a : Lane) : a.Agrees a := ⟨fun _ => .rfl, id⟩

theorem Lane.Agrees.trans {a b c : Lane} (h : a.Agrees b) (k : b.Agrees c) : a.Agrees c :=
  ⟨fun g => (k.preparing g).trans (h.preparing g), k.sourced ∘ h.sourced⟩

/-- An act that leaves the deck's state and the source. -/
theorem Lane.Agrees.of_same {a b : Lane} (state : b.deck.state = a.deck.state) (source : b.source = a.source) :
    a.Agrees b := by
  refine ⟨fun g => by rw [state], fun h => ?_⟩
  unfold Lane.Sourced at h ⊢
  rwa [state, source]

/-- An act on a deck that is not PREPARING and does not become so. -/
theorem Lane.Agrees.of_unprepared {a b : Lane} (before : a.Unprepared) (after : b.Unprepared) (sourced : b.Sourced) :
    a.Agrees b :=
  ⟨fun g => iff_of_false (after g) (before g), fun _ => sourced⟩

/-- A deck that is not PREPARING is not made so. -/
theorem Lane.Agrees.unprepared {a b : Lane} (h : a.Agrees b) (before : a.Unprepared) : b.Unprepared :=
  fun g is => before g ((h.preparing g).mp is)

theorem Lane.sourced_live {ln : Lane} (live : ln.source = .live) (idle : ∀ g, ln.deck.state ≠ .playing g) : ln.Sourced :=
  iff_of_false (by rw [live]; exact Source.noConfusion) fun ⟨g, is⟩ => idle g is

theorem Lane.sourced_script {ln : Lane} {g : Nat} (script : ln.source = .script) (plays : ln.deck.state = .playing g) :
    ln.Sourced :=
  iff_of_true script ⟨g, plays⟩

/-- The source of a lane on which no deck plays becomes LIVE. -/
theorem Lane.agrees_live (ln : Lane) (idle : ∀ g, ln.deck.state ≠ .playing g) : ln.Agrees { ln with source := .live } :=
  ⟨fun _ => .rfl, fun _ => Lane.sourced_live rfl idle⟩

theorem foldl_laneAgrees {α : Type} (f : LaneRun → α → LaneRun) (agrees : ∀ (r : LaneRun) (a : α), r.lane.Agrees (f r a).lane)
    (as : List α) (r : LaneRun) : r.lane.Agrees (as.foldl f r).lane :=
  foldl_related (R := fun r q => r.lane.Agrees q.lane) (fun r => .refl r.lane) .trans f agrees as r

/-! ## Timing and the builder -/

section Timing

variable (env : LaneEnv) (r : LaneRun)

theorem compose_agrees : r.lane.Agrees (compose r).lane := by
  obtain ⟨same, -⟩ | ⟨t, rest, -, -, -, taken⟩ := compose_cases r
  · rw [same]; exact .refl _
  · rw [taken]; exact .of_same rfl rfl

theorem cutIfLate_agrees (t : TimedUnit) : r.lane.Agrees (cutIfLate env t r).lane := by
  unfold cutIfLate cutNamed
  split
  · exact .refl _
  · split
    · split
      · exact .refl _
      · split <;> exact .of_same rfl rfl
    · exact .refl _

theorem appendTimed_agrees (now : Nat) (t : TimedUnit) : r.lane.Agrees (appendTimed env now t r).lane := by
  have discarded (q : LaneRun) : q.lane.Agrees (discardHead env now q).lane := by
    unfold discardHead
    split <;> exact .of_same rfl rfl
  unfold appendTimed
  dsimp only
  split
  · exact .trans (b := LaneRun.lane (.edit r _)) (.of_same rfl rfl) ((discarded _).trans (.of_same rfl rfl))
  · exact .of_same rfl rfl

theorem joinScriptWords_agrees (u : CaptionUnit) : r.lane.Agrees (joinScriptWords u r).lane := by
  unfold joinScriptWords
  split <;> exact .of_same rfl rfl

theorem timeUnit_agrees (now : Nat) (u : CaptionUnit) : r.lane.Agrees (timeUnit env now u r).lane :=
  (cutIfLate_agrees ..).trans <| (appendTimed_agrees ..).trans <| (joinScriptWords_agrees ..).trans (compose_agrees _)

/-- An edit of the builder. -/
theorem LaneRun.editBuilder_agrees (f : Builder → Builder) : r.lane.Agrees (r.editBuilder f).lane := .of_same rfl rfl

theorem timeDue_agrees : r.lane.Agrees (timeDue env r).lane :=
  (r.editBuilder_agrees _).trans (foldl_laneAgrees _ (fun r _ => timeUnit_agrees env r _ _) _ _)

theorem timeAll_agrees : r.lane.Agrees (timeAll env r).lane :=
  (r.editBuilder_agrees _).trans (foldl_laneAgrees _ (fun r _ => timeUnit_agrees env r _ _) _ _)

theorem forceHead_agrees : r.lane.Agrees (forceHead env r).lane := by
  unfold forceHead
  split
  · exact .refl _
  · exact (r.editBuilder_agrees _).trans (timeUnit_agrees ..)

theorem closeOpen_agrees (cause : CloseCause) : r.lane.Agrees (closeOpen env cause r).lane := by
  unfold closeOpen
  split
  · exact .refl _
  · refine .trans ?_ ((LaneRun.editBuilder_agrees _ _).trans (timeDue_agrees env _))
    split
    · exact (r.editBuilder_agrees _).trans (forceHead_agrees ..)
    · exact r.editBuilder_agrees _

theorem layWord_agrees (w : CapWord) (arrival : Nat) (writer : WriterId) (lag : Nat) :
    r.lane.Agrees (layWord env w arrival writer lag r).lane := by
  have created (q : LaneRun) : q.lane.Agrees (createUnit env w arrival writer lag q).lane := .of_same rfl rfl
  have placed (q : LaneRun) : q.lane.Agrees (wordPlaced env w q).lane := .of_same rfl rfl
  refine .trans ?_ (placed _)
  split
  · exact created r
  · split
    · exact r.editBuilder_agrees _
    · exact (closeOpen_agrees env r .full).trans (created _)

theorem speakerChange_agrees (writer : WriterId) (index : Byte) : r.lane.Agrees (speakerChange env writer index r).lane := by
  refine (closeOpen_agrees env r .speaker).trans ?_
  unfold speakerChange
  dsimp only
  split <;> exact .of_same rfl rfl

theorem flushExpiry_agrees : r.lane.Agrees (flushExpiry env r).lane := by
  unfold flushExpiry
  split
  · exact (closeOpen_agrees env r .flush).trans (.of_same rfl rfl)
  · exact .refl _

theorem laneDelete_agrees (writer : WriterId) (n : Nat) : r.lane.Agrees (laneDelete env writer n r).lane := by
  unfold laneDelete
  dsimp only
  split <;> exact .of_same rfl rfl

theorem applyMarks_agrees (w : WriterId) (m : Marks) : r.lane.Agrees (applyMarks env w m r).lane := by
  have broken : r.lane.Agrees (if m.brk = true then closeOpen env .brk r else r).lane := by
    split
    · exact closeOpen_agrees ..
    · exact .refl _
  unfold applyMarks
  cases m.speaker with
  | none => exact broken
  | some i => exact broken.trans (speakerChange_agrees ..)

/-- R42 to R46: a replay is made of the builder's own acts. -/
theorem discardAndReplay_agrees (suppressed : Bool) (v : WriterId) (w : Writer) (k : Nat) :
    r.lane.Agrees (discardAndReplay suppressed v w k env r).lane := by
  unfold discardAndReplay
  dsimp only
  refine .trans (b := (r.edit fun ln => { ln with
    counters := { ln.counters with overlap := saturate (ln.counters.overlap + k) } }).lane) (.of_same rfl rfl) ?_
  split
  · exact .of_same rfl rfl
  · exact (foldl_laneAgrees _ (fun r _ => (applyMarks_agrees env r ..).trans (layWord_agrees ..)) _ _).trans
      (applyMarks_agrees ..)

end Timing

/-! ## The deck player -/

section Playing

variable (env : LaneEnv) (r : LaneRun)

/-- A deck whose units are at an end is EMPTY, and the source LIVE (R167). -/
theorem exhaust_agrees (segment : Nat) (idle : r.lane.Unprepared) : r.lane.Agrees (exhaust env segment r).lane := by
  unfold exhaust
  split
  · exact .of_unprepared idle nofun (Lane.sourced_live rfl nofun)
  · exact .refl _

theorem timeDeckUnit_agrees (segment : Nat) (u : CaptionUnit) (onset : Nat) (idle : r.lane.Unprepared) :
    r.lane.Agrees (timeDeckUnit env segment u onset r).lane := by
  have timed (q : LaneRun) (same : q.lane.deck.state = r.lane.deck.state) (source : q.lane.source = r.lane.source)
      (v : CaptionUnit) : r.lane.Agrees (timeUnit env env.sfc v q).lane :=
    (Lane.Agrees.of_same same source).trans (timeUnit_agrees ..)
  unfold timeDeckUnit
  have before := timed (r.editDeck fun d =>
    { d with units := d.units.drop 1, nextIndex := d.nextIndex.map (· + 1), onsets := d.onsets.drop 1 }) rfl rfl
    { u with onset := some (onset : Int) }
  exact before.trans (exhaust_agrees _ _ _ (before.unprepared idle))

/-- A deck that feeds is PLAYING (R166). -/
theorem feedUpTo_agrees (n : Nat) : r.lane.Agrees (feedUpTo env n r).lane := by
  induction n generalizing r with
  | zero => exact .refl _
  | succ n ih =>
    unfold feedUpTo
    split
    · next plays _ _ =>
      split
      · exact (timeDeckUnit_agrees env r _ _ _ (Lane.unprepared_of_state plays nofun)).trans (ih _)
      · exact .refl _
    · exact .refl _

theorem feed_agrees : r.lane.Agrees (feed env r).lane := feedUpTo_agrees ..

theorem composeAndFeed_agrees : r.lane.Agrees (composeAndFeed env r).lane := (compose_agrees r).trans (feed_agrees ..)

/-- A take that is carried out sets the deck PLAYING and the source SCRIPT together (R162). -/
theorem carryOutTake_agrees (segment cueFrame : Nat) (idle : r.lane.Unprepared) :
    r.lane.Agrees (carryOutTake env segment cueFrame r).lane := by
  unfold carryOutTake
  dsimp only
  generalize begun : LaneRun.edit (timeAll env (closeOpen env .take r)) _ = q
  have playing : q.lane.deck.state = .playing segment := begun ▸ rfl
  have unprepared : q.lane.Unprepared := Lane.unprepared_of_state playing nofun
  have taken : r.lane.Agrees q.lane := .of_unprepared idle unprepared (Lane.sourced_script (begun ▸ rfl) playing)
  split
  · exact taken.trans (exhaust_agrees _ _ _ unprepared)
  · exact taken.trans (timeDeckUnit_agrees _ _ _ _ _ unprepared)
  · exact taken.trans (feed_agrees ..)

/-- A TAKE begins playing where the deck is READY; on a PREPARING deck it is recorded (R161, R163). -/
theorem laneTake_agrees (following : Bool) (segment tag : Nat) : r.lane.Agrees (laneTake following segment tag env r).lane := by
  unfold laneTake
  split
  · exact .refl _
  · split
    · next ready =>
      split
      · exact carryOutTake_agrees env r _ _ (Lane.unprepared_of_state ready nofun)
      · exact .refl _
    · split
      · exact .of_same rfl rfl
      · exact .refl _
    · exact .refl _

theorem laneAdvance_agrees (tag : Nat) : r.lane.Agrees (laneAdvance tag env r).lane := by
  unfold laneAdvance
  split
  · next plays _ _ => exact timeDeckUnit_agrees env r _ _ _ (Lane.unprepared_of_state plays nofun)
  · exact .refl _

theorem dropTake_agrees : r.lane.Agrees (dropTake env r).lane := by
  rw [dropTake_lane]
  exact .of_same rfl rfl

/-- A deck that ends is EMPTY, and the source LIVE (R129, R168). -/
theorem endPlaying_agrees : r.lane.Agrees (endPlaying r).lane := by
  unfold endPlaying
  split
  · next plays => exact .of_unprepared (Lane.unprepared_of_state plays nofun) nofun (Lane.sourced_live rfl nofun)
  · exact .refl _

theorem laneEnd_agrees (tag : Nat) : r.lane.Agrees (laneEnd tag env r).lane := by
  unfold laneEnd
  split
  · exact endPlaying_agrees r
  · exact dropTake_agrees ..
  · exact .refl _

/-- R160: a READY deck alone is invalidated. -/
theorem invalidateDeck_agrees : r.lane.Agrees (invalidateDeck env r).lane := by
  unfold invalidateDeck
  split
  · next ready =>
    refine ⟨fun g => iff_of_false nofun (Lane.unprepared_of_state ready nofun g), fun h => ?_⟩
    unfold Lane.Sourced at h
    rw [ready] at h
    exact h.trans (iff_of_false nofun nofun)
  · exact .refl _

/-- R159, R163: a take that waits on a deck that is not PREPARING any more is carried out. -/
theorem afterPrepare_agrees (segment : Nat) (units : List CaptionUnit) (limited : List Nat) (idle : r.lane.Unprepared) :
    r.lane.Agrees (afterPrepare segment units limited env r).lane := by
  have reported : r.lane = (layoutReports env units limited r).lane := by rw [layoutReports_eq]
  rw [reported] at idle ⊢
  unfold afterPrepare carryOutPending
  split
  · exact .refl _
  · exact .trans (b := LaneRun.lane (.editDeck _ _)) (.of_same rfl rfl) (carryOutTake_agrees _ _ _ _ idle)

end Playing

/-! ## Lane control and inserters -/

section Control

variable (env : LaneEnv) (r : LaneRun)

theorem retime_agrees : r.lane.Agrees (retime env r).lane := by
  have walked : r.lane.Agrees (r.lane.walked env.sfc) := by
    unfold Lane.walked
    dsimp only
    split
    · exact .of_same rfl rfl
    · split <;> exact .of_same rfl rfl
  unfold retime
  dsimp only
  refine walked.trans <| .trans ?_ (composeAndFeed_agrees ..)
  split <;> exact .of_same rfl rfl

theorem laneThaw_agrees : r.lane.Agrees (laneThaw env r).lane := by
  have thawed : r.lane.Agrees (r.edit fun ln => { ln with frozen := false }).lane := .of_same rfl rfl
  unfold laneThaw
  split
  · dsimp only
    split
    · exact thawed.trans (composeAndFeed_agrees ..)
    · exact thawed.trans (retime_agrees ..)
  · exact .refl _

theorem laneResume_agrees : r.lane.Agrees (laneResume env r).lane := by
  have resumed : r.lane.Agrees (r.edit fun ln => { ln with held := false }).lane := .of_same rfl rfl
  unfold laneResume
  split
  · dsimp only
    split
    · exact resumed
    · exact resumed.trans (retime_agrees ..)
  · exact .refl _

theorem releaseNext_agrees : r.lane.Agrees (releaseNext env r).lane := .of_same rfl rfl

theorem laneStep_agrees : r.lane.Agrees (laneStep env r).lane := by
  unfold laneStep
  split
  · exact (releaseNext_agrees env r).trans (composeAndFeed_agrees ..)
  · exact .refl _

/-- What ends a lane's deck sets its source LIVE and drops its take (R117, R129). -/
theorem dropTake_endPlaying_agrees (f : Lane → Lane) (deck : (f r.lane).deck = r.lane.deck)
    (source : (f r.lane).source = r.lane.source) :
    r.lane.Agrees (dropTake env ((endPlaying (r.edit f)).edit fun ln => { ln with source := .live })).lane :=
  .trans (b := (r.edit f).lane) (.of_same (congrArg _ deck) source) <| (endPlaying_agrees _).trans <|
    .trans (b := LaneRun.lane (.edit _ fun ln => { ln with source := .live })) (Lane.agrees_live _ (endPlaying_state _))
      (dropTake_agrees ..)

theorem laneClear_agrees (keepStyle : Bool) : r.lane.Agrees (laneClear keepStyle env r).lane :=
  dropTake_endPlaying_agrees env r (Lane.swept · keepStyle) rfl rfl

theorem laneStop_agrees : r.lane.Agrees (laneStop env r).lane := dropTake_endPlaying_agrees env r _ rfl rfl

theorem laneSplit_agrees : r.lane.Agrees (laneSplit env r).lane :=
  .trans (b := (r.edit (Lane.swept · false)).lane) (.of_same rfl rfl) (feed_agrees ..)

theorem laneCue_agrees (following : Bool) (c : Cue) : r.lane.Agrees (laneCue following c env r).lane := by
  unfold laneCue
  cases c.kind with
  | freeze | hold => exact .of_same rfl rfl
  | split | join => exact .refl _
  | thaw => exact laneThaw_agrees ..
  | step => exact laneStep_agrees ..
  | resume => exact laneResume_agrees ..
  | clear => exact laneClear_agrees ..
  | take => exact laneTake_agrees ..
  | advance => exact laneAdvance_agrees ..
  | finish => exact laneEnd_agrees ..

/-- R136: a deck that is withdrawn is EMPTY; a PREPARING one goes on. -/
theorem withdrawDeck_agrees : r.lane.Agrees (withdrawDeck r).lane := by
  unfold withdrawDeck
  simp only [LaneRun.edit_lane]
  cases state : r.lane.deck.state with
  | empty => exact ⟨fun g => .rfl, fun _ => Lane.sourced_live rfl fun g => by simp [state]⟩
  | preparing g => exact ⟨fun g => .rfl, fun _ => Lane.sourced_live rfl fun g => by simp [state]⟩
  | ready g | playing g =>
    exact .of_unprepared (Lane.unprepared_of_state state nofun) nofun (Lane.sourced_live rfl nofun)

theorem withdrawFlags_agrees : r.lane.Agrees (withdrawFlags env r).lane := by
  unfold withdrawFlags
  split
  · exact .trans (b := (r.edit fun ln => { ln with frozen := false, held := false }).lane) (.of_same rfl rfl) (retime_agrees ..)
  · exact .refl _

theorem serveImage_agrees : r.lane.Agrees (serveImage env r).lane := by
  unfold serveImage
  split
  · exact (releaseNext_agrees env r).trans (composeAndFeed_agrees ..)
  · split
    · exact .of_same rfl rfl
    · exact .refl _

theorem alignCheck_agrees (time : TimeBase) (value : Option Nat) : r.lane.Agrees (alignCheck time value env r).lane := by
  unfold alignCheck
  dsimp only
  split_ifs <;> exact .of_same rfl rfl

theorem applyParams_agrees (after : Params) : r.lane.Agrees (applyParams after env r).lane := by
  have applied : r.lane.Agrees (r.edit fun ln => { ln with
      params := after
      display := if r.lane.params.align = after.align then ln.display else ln.display.alignReset }).lane := .of_same rfl rfl
  unfold applyParams
  dsimp only
  cases layoutChanged r.lane.params after with
  | true => exact applied.trans (invalidateDeck_agrees ..)
  | false => exact applied

end Control

end Sys2Proof.Machine
end

section
/-! PROOF. What every act of the part but the store's own keeps of the store and the decks: the store stays, and each lane's
deck agrees with its source and is PREPARING as before (R143, R150, R157). -/

namespace Sys2Proof.Machine

/-- An act leaves the store, and on each lane it neither begins nor ends a preparation and keeps the source in agreement. -/
structure State.Agrees (s t : State) : Prop where
  store : t.store = s.store
  lanes : ∀ l, (s.lane l).Agrees (t.lane l)

theorem State.Agrees.trans {s t u : State} (h : s.Agrees t) (k : t.Agrees u) : s.Agrees u :=
  ⟨k.store.trans h.store, fun l => (h.lanes l).trans (k.lanes l)⟩

/-- An act that leaves the store and the lanes. -/
theorem State.Agrees.of_same {s t : State} (store : t.store = s.store) (lanes : t.lanes = s.lanes) : s.Agrees t := by
  refine ⟨store, fun l => ?_⟩
  rw [State.lane, State.lane, lanes]
  exact .refl _

theorem State.Agrees.refl (s : State) : s.Agrees s := .of_same rfl rfl

theorem foldl_agrees {α : Type} (f : State → α → State) (agrees : ∀ (s : State) (a : α), s.Agrees (f s a)) (as : List α)
    (s : State) : s.Agrees (as.foldl f s) := foldl_related .refl .trans f agrees as s

/-! ## Reports, lanes and links -/

section Items

variable (s : State)

theorem State.queueReports_agrees (rs : List Report) : s.Agrees (s.queueReports rs) :=
  .of_same (s.queueReports_store rs) (s.queueReports_lanes rs)

theorem State.report_agrees (k : ReportKind) (l : Option LaneId) (w : Option WriterId) (v : Option Nat) :
    s.Agrees (s.report k l w v) := s.queueReports_agrees [_]

theorem State.setLane_agrees (l : LaneId) (x : Lane) (h : (s.lane l).Agrees x) : s.Agrees (s.setLane l x) := by
  refine ⟨rfl, fun m => ?_⟩
  obtain rfl | other := eq_or_ne m l
  · rwa [State.lane_setLane_self]
  · rw [State.lane_setLane_of_ne s x other]; exact .refl _

/-- A lane's blocks at work on the lane as it stands. -/
theorem State.onLane_agrees_at (l : LaneId) (act : LaneEnv → LaneRun → LaneRun)
    (h : (s.lane l).Agrees (act (s.env l) { lane := s.lane l, out := [] }).lane) : s.Agrees (s.onLane l act) :=
  (s.setLane_agrees l _ h).trans (State.queueReports_agrees ..)

/-- A lane's blocks at work. -/
theorem State.onLane_agrees (l : LaneId) (act : LaneEnv → LaneRun → LaneRun)
    (h : ∀ (env : LaneEnv) (r : LaneRun), r.lane.Agrees (act env r).lane) : s.Agrees (s.onLane l act) :=
  s.onLane_agrees_at l act (h (s.env l) { lane := s.lane l, out := [] })

theorem State.restartSupervision_agrees : s.Agrees s.restartSupervision := by
  unfold State.restartSupervision; split <;> exact .of_same rfl rfl

theorem State.automationGood_agrees : s.Agrees s.automationGood :=
  .trans (t := s.countGood .automation) (.of_same rfl rfl) (State.restartSupervision_agrees _)

theorem State.withTime_agrees (x : TimeBase × List Report) : s.Agrees (s.withTime x) :=
  .trans (t := { s with time := x.1 }) (.of_same rfl rfl) (State.queueReports_agrees ..)

end Items

/-! ## Cues and withdraw -/

section Cues

variable (s : State)

theorem State.join_agrees : s.Agrees s.join := by
  have cleared := s.onLane_agrees .lane1 (laneClear false) fun env r => laneClear_agrees env r false
  unfold State.join
  dsimp only
  split
  · exact cleared
  · exact cleared.trans (.of_same rfl rfl)

theorem State.split_agrees : s.Agrees s.split :=
  .trans (t := { s with following := false }) (.of_same rfl rfl) (State.onLane_agrees _ _ _ laneSplit_agrees)

theorem State.executeCue_agrees (c : Cue) : s.Agrees (s.executeCue c) := by
  have oneLane (s : State) (l : LaneId) : s.Agrees (s.cueIfAddressed c l) := by
    unfold State.cueIfAddressed State.cueOnLane
    split
    · split
      · exact s.join_agrees
      · exact s.split_agrees
      · split
        · exact s.onLane_agrees _ _ fun env r => laneCue_agrees env r _ c
        · exact .refl s
    · exact .refl s
  exact (oneLane s .lane0).trans (oneLane _ .lane1)

theorem State.withdraw_agrees (byExpiry : Bool) : s.Agrees (s.withdraw byExpiry) := by
  have both (act : LaneEnv → LaneRun → LaneRun)
      (h : ∀ (env : LaneEnv) (r : LaneRun), r.lane.Agrees (act env r).lane) (s : State) :
      s.Agrees ((s.onLane .lane0 act).onLane .lane1 act) :=
    (s.onLane_agrees _ _ h).trans (State.onLane_agrees _ _ _ h)
  exact (both _ (fun _ => withdrawDeck_agrees) s).trans <| (both _ withdrawFlags_agrees _).trans <|
    (both _ dropTake_agrees _).trans <|
    .trans (t := { (_ : State) with schedule := [], supervisionExpiry := none }) (.of_same rfl rfl) (State.report_agrees ..)

theorem State.acceptCue_agrees (p : List Byte) (c : Cue) (target : Option Nat) : s.Agrees (s.acceptCue p c target).1 := by
  unfold State.acceptCue
  split
  · exact s.executeCue_agrees c
  · split
    · exact s.executeCue_agrees c
    · exact (s.report_agrees ..).trans (State.executeCue_agrees ..)
    · split
      · exact s.report_agrees ..
      · exact .of_same rfl rfl

theorem takeCueFrame_agrees (p : List Byte) : s.Agrees (takeCueFrame p s).1 := by
  unfold takeCueFrame
  split
  · exact s.report_agrees ..
  · split
    · exact s.report_agrees ..
    · exact s.acceptCue_agrees ..

end Cues

/-! ## Writers -/

section Writers

variable (s : State)

theorem State.leaveRole_agrees (w : WriterId) : s.Agrees (s.leaveRole w) := by
  rw [State.leaveRole_eq]
  refine .trans (t := s.relieved w) ?_ (.of_same rfl rfl)
  unfold State.relieved
  split
  · exact s.onLane_agrees _ _ fun env r => closeOpen_agrees env r .handover
  · exact .refl s

theorem State.assignRole_agrees (w : WriterId) (r : Role) : s.Agrees (s.assignRole w r) := by
  by_cases busy : r = .idle
  · subst busy; exact s.leaveRole_agrees w
  · rw [s.assignRole_eq w r busy]
    refine (s.leaveRole_agrees w).trans <| .trans (t := (s.leaveRole w).vacated r) ?_ (.of_same rfl rfl)
    unfold State.vacated
    split
    · exact State.leaveRole_agrees ..
    · exact .refl _

theorem announceChanges_agrees (before : PerWriter Writer) : s.Agrees (announceChanges before s) := by
  rw [announceChanges_eq]; exact .of_same rfl rfl

theorem State.stageWord_agrees (w : WriterId) (l : LaneId) (t : Text) (attach : Bool) :
    s.Agrees (s.stageWord w l t attach) := by
  unfold State.stageWord
  dsimp only
  split
  · exact .trans (t := s.setWriter w _) (.of_same rfl rfl) (State.report_agrees ..)
  · exact .of_same rfl rfl

/-- R42 to R46: a handover closes the open unit and replays or suppresses words. -/
theorem State.relayLane_agrees (l : LaneId) (w : WriterId) (out : Bool) : s.Agrees (s.relayLane l w out).1 :=
  (s.onLane_agrees l _ fun env r => closeOpen_agrees env r .handover).trans
    (State.onLane_agrees _ _ _ fun env r => discardAndReplay_agrees env r ..)

theorem State.exchangeRoles_agrees (l : LaneId) (w : WriterId) (out : Option WriterId) :
    s.Agrees (s.exchangeRoles l w out) := by
  rw [State.exchangeRoles_eq]; exact .of_same rfl rfl

theorem State.relay_agrees (l : LaneId) (w : WriterId) : s.Agrees (s.relay l w) := by
  have replayed : s.Agrees (if s.running l then s.relayLane l w (s.holder (.onAir l)).isSome else (s, 0)).1 := by
    split
    · exact s.relayLane_agrees ..
    · exact .refl s
  unfold State.relay
  dsimp only
  refine (replayed.trans (State.exchangeRoles_agrees _ l w (s.holder (.onAir l)))).trans (.trans ?_
    (State.report_agrees ..))
  cases s.holder (.onAir l) <;> exact .of_same rfl rfl

theorem State.reportSubstituted_agrees (w : WriterId) (l : LaneId) (t : Text) : s.Agrees (s.reportSubstituted w l t) := by
  unfold State.reportSubstituted
  split
  · exact .refl s
  · exact s.report_agrees ..

theorem State.judgeMessage_agrees (w : WriterId) (kind : Byte) (bad : Option Reason)
    (suppressed onAir staged : State → LaneId → State) (h1 : ∀ l, s.Agrees (suppressed s l))
    (h2 : ∀ l, s.Agrees (onAir s l)) (h3 : ∀ l, s.Agrees (staged s l)) :
    s.Agrees (s.judgeMessage w kind bad suppressed onAir staged) := by
  unfold State.judgeMessage
  split
  · exact .of_same rfl rfl
  · split
    · split
      · exact .of_same rfl rfl
      · split
        · exact h1 _
        · exact h2 _
    · exact .of_same rfl rfl
  · split
    · exact .of_same rfl rfl
    · exact h3 _

theorem State.takeWord_agrees (w : WriterId) (p : List Byte) : s.Agrees (s.takeWord w p) := by
  unfold State.takeWord
  split
  · exact .of_same rfl rfl
  · refine s.judgeMessage_agrees w _ _ _ _ _ (fun l => ?_) (fun l => ?_) fun l => ?_
    · exact s.onLane_agrees _ _ fun _ _ => .of_same rfl rfl
    · exact (s.reportSubstituted_agrees ..).trans (State.onLane_agrees _ _ _ fun env r => layWord_agrees env r ..)
    · exact (s.reportSubstituted_agrees ..).trans (State.stageWord_agrees ..)

theorem State.takeBreak_agrees (w : WriterId) (p : List Byte) : s.Agrees (s.takeBreak w p) := by
  unfold State.takeBreak
  split
  · exact .of_same rfl rfl
  · exact s.judgeMessage_agrees w _ _ _ _ _ (fun _ => .refl s)
      (fun _ => s.onLane_agrees _ _ fun env r => closeOpen_agrees env r .brk) fun _ => .of_same rfl rfl

theorem State.takeSpeaker_agrees (w : WriterId) (p : List Byte) : s.Agrees (s.takeSpeaker w p) := by
  unfold State.takeSpeaker
  split
  · exact s.judgeMessage_agrees w _ _ _ _ _ (fun _ => .refl s)
      (fun _ => s.onLane_agrees _ _ fun env r => speakerChange_agrees env r ..) fun _ => .of_same rfl rfl
  · exact .of_same rfl rfl

theorem State.takeDelete_agrees (w : WriterId) (p : List Byte) : s.Agrees (s.takeDelete w p) := by
  unfold State.takeDelete
  split
  · exact s.judgeMessage_agrees w _ _ _ _ _ (fun _ => .refl s)
      (fun _ => s.onLane_agrees _ _ fun env r => laneDelete_agrees env r ..) fun _ => .of_same rfl rfl
  · exact .of_same rfl rfl

theorem State.takeTake_agrees (w : WriterId) (p : List Byte) : s.Agrees (s.takeTake w p) := by
  unfold State.takeTake
  split
  · exact .of_same rfl rfl
  · split
    · exact s.relay_agrees ..
    · exact .of_same rfl rfl

theorem State.takeQuery_agrees (w : WriterId) (p : List Byte) : s.Agrees (s.takeQuery w p) := by
  unfold State.takeQuery
  split <;> exact .of_same rfl rfl

theorem State.takeMessage_agrees (w : WriterId) (kind : Byte) (p : List Byte) : s.Agrees (s.takeMessage w kind p) := by
  unfold State.takeMessage
  split_ifs
  · exact s.takeWord_agrees w p
  · exact s.takeBreak_agrees w p
  · exact s.takeSpeaker_agrees w p
  · exact s.takeDelete_agrees w p
  · exact s.takeTake_agrees w p
  · exact s.takeQuery_agrees w p
  · exact .of_same rfl rfl

end Writers

/-! ## Requests but for the store's -/

section Handlers

variable (p : List Byte) (s : State)

theorem configureLaneRequest_agrees : s.Agrees (configureLaneRequest p s).1 := by
  unfold configureLaneRequest
  split
  · exact .refl s
  · split
    · exact .refl s
    · split
      · exact .refl s
      · exact s.onLane_agrees _ _ fun env r => applyParams_agrees env r _

theorem configureWriterRequest_agrees : s.Agrees (configureWriterRequest p s).1 := by
  unfold configureWriterRequest
  split <;> exact .of_same rfl rfl

theorem setStyleRequest_agrees : s.Agrees (setStyleRequest p s).1 := by
  unfold setStyleRequest
  dsimp only
  split
  · exact .refl s
  · split <;> exact .of_same rfl rfl

theorem setFrameRateRequest_agrees : s.Agrees (setFrameRateRequest p s).1 := by
  unfold setFrameRateRequest
  split
  · exact .refl s
  · split <;> exact .of_same rfl rfl

theorem setSupervisionRequest_agrees : s.Agrees (setSupervisionRequest p s).1 := by
  unfold setSupervisionRequest
  dsimp only
  split
  · exact .of_same rfl rfl
  · exact .trans (t := { s with supervisionInterval := clamp 0 60 (byteAt p 0) }) (.of_same rfl rfl)
      (State.restartSupervision_agrees _)

theorem assignRequest_agrees : s.Agrees (assignRequest p s).1 := by
  unfold assignRequest
  split
  · exact (s.assignRole_agrees ..).trans (announceChanges_agrees ..)
  · exact .refl s

theorem handoverRequest_agrees : s.Agrees (handoverRequest p s).1 := by
  unfold handoverRequest
  split
  · exact .refl s
  · split
    · exact .refl s
    · exact s.relay_agrees ..

theorem releaseRequest_agrees : s.Agrees (releaseRequest p s).1 := by
  dsimp only [releaseRequest]
  exact s.withdraw_agrees false

theorem State.forgetFollowed_agrees (l : LaneId) : s.Agrees (s.forgetFollowed l) := by
  cases l <;> exact .of_same rfl rfl

theorem startRequest_agrees : s.Agrees (startRequest p s).1 := by
  unfold startRequest
  split
  · exact .refl s
  · split
    · exact .refl s
    · exact (s.onLane_agrees _ laneStart fun _ _ => .of_same rfl rfl).trans (State.forgetFollowed_agrees ..)

theorem stopRequest_agrees : s.Agrees (stopRequest p s).1 := by
  unfold stopRequest
  split
  · exact .refl s
  · split
    · exact (s.onLane_agrees _ _ laneStop_agrees).trans (State.forgetFollowed_agrees ..)
    · exact .refl s

theorem clearCountersRequest_agrees : s.Agrees (clearCountersRequest p s).1 := by
  refine ⟨rfl, fun l => ?_⟩
  rw [clearCountersRequest, State.zeroCounters_lane]
  exact .of_same rfl rfl

theorem statusRequest_agrees : s.Agrees (statusRequest p s).1 := by
  unfold statusRequest; split <;> exact .refl s

end Handlers

/-! ## Replies to inserters -/

section Replies

variable (s : State)

theorem State.replyOwn_agrees (l : LaneId) (everyFrame : Bool) : s.Agrees (s.replyOwn l everyFrame) := by
  have told : s.Agrees (s.setLane l { s.lane l with display := { (s.lane l).display with changed := false } }) :=
    s.setLane_agrees l _ (.of_same rfl rfl)
  unfold State.replyOwn
  dsimp only
  split
  · exact told.trans (.of_same rfl rfl)
  · exact .of_same rfl rfl

theorem State.replyFollowing_agrees : s.Agrees s.replyFollowing := by
  have told : s.Agrees (s.setLane .lane1 { s.lane .lane1 with display := { (s.lane .lane1).display with changed := false } }) :=
    s.setLane_agrees .lane1 _ (.of_same rfl rfl)
  unfold State.replyFollowing
  dsimp only
  split
  · exact told.trans (.of_same rfl rfl)
  · exact .of_same rfl rfl

theorem State.takeRequest_agrees (l : LaneId) (word : TimecodeWord) : s.Agrees (s.takeRequest l word) := by
  unfold State.takeRequest
  dsimp only
  refine (s.onLane_agrees l (alignCheck s.time (timecodeFrames word s.time.rate)) fun env r =>
    alignCheck_agrees env r ..).trans ?_
  split
  · exact State.replyFollowing_agrees _
  · split
    · exact (State.onLane_agrees _ _ _ serveImage_agrees).trans (State.replyOwn_agrees ..)
    · exact State.replyOwn_agrees ..

theorem State.inserterFrame_agrees (l : LaneId) (kind : Byte) (p : List Byte) : s.Agrees (s.inserterFrame l kind p) := by
  have counted : s.Agrees (s.countGood (.inserter l)) := .of_same rfl rfl
  unfold State.inserterFrame
  dsimp only
  refine counted.trans ?_
  split_ifs
  · exact .refl _
  · exact .of_same rfl rfl
  · exact .of_same rfl rfl
  · exact State.takeRequest_agrees ..

end Replies

end Sys2Proof.Machine
end

section
/-! PROOF. The law of the script store by itself (R140 to R150): what each of the store's operations keeps of it, and of what
it says of the decks. -/

namespace Sys2Proof.Machine

/-! ## Memory in canonical form within bounds (R140, R142) -/

/-- Memory in canonical form whose listed addresses all lie below a bound. -/
def Memory.Within (m : Memory) (n : Nat) : Prop := m.wf = true ∧ ∀ c ∈ m, c.1 < n

/-- A write lists no address but its own. -/
theorem Memory.mem_write (m : Memory) (a : Nat) (v : Byte) {c : Host.Cell} (h : c ∈ m.write a v) : c ∈ m ∨ c.1 = a := by
  induction m with
  | nil =>
    unfold Memory.write at h
    split at h
    · exact .inl h
    · exact .inr (List.mem_singleton.mp h ▸ rfl)
  | cons d m ih =>
    unfold Memory.write at h
    split_ifs at h
    · exact .inl h
    · exact (List.mem_cons.mp h).symm.imp_right (congrArg Prod.fst)
    · exact .inl (List.mem_cons_of_mem _ h)
    · exact (List.mem_cons.mp h).symm.imp (List.mem_cons_of_mem _) (congrArg Prod.fst)
    · obtain first | rest := List.mem_cons.mp h
      · exact .inl (first ▸ List.mem_cons_self ..)
      · exact (ih rest).imp_left (List.mem_cons_of_mem _)

theorem Memory.Within.write {m : Memory} {n : Nat} (h : m.Within n) {a : Nat} (v : Byte) (within : a < n) :
    (m.write a v).Within n :=
  ⟨m.wf_write a v h.1, fun c hc => (m.mem_write a v hc).elim (h.2 c) fun same => same ▸ within⟩

/-- A run that ends within the bound. -/
theorem Memory.Within.writeRun {m : Memory} {n : Nat} (h : m.Within n) {a : Nat} (vs : List Byte) (within : a + vs.length ≤ n) :
    (m.writeRun a vs).Within n := by
  induction vs generalizing m a with
  | nil => exact h
  | cons v vs ih =>
    rw [List.length_cons] at within
    exact ih (h.write v (by omega)) (by omega)

/-! ## The law of the store -/

/-- A segment lies within the pages (R148). -/
def Segment.Fits (g : Segment) : Prop := 1 ≤ g.count ∧ g.count ≤ 32 ∧ g.first + g.count ≤ 512

/-- The laws that the store has by itself. -/
structure Store.Lawful (x : Store) : Prop where
  text : x.text.Within (96 * 512)
  chars : ∀ b, (x.buffer b).chars.Within 96
  writing : ∀ p, x.page p = .writing ↔ ∃ b, x.engine = .commit b p
  locked : ∀ b, (x.buffer b).locked = true ↔ ∃ p, x.engine = .commit b p
  prepared : ∀ g l, x.engine = .prepare g l → (x.segment g).isSome = true
  segments : ∀ g y, x.segment g = some y → y.Fits

/-- A lane's deck is PREPARING exactly the segment that the engine prepares for it, and its source agrees with it. -/
structure Lane.Served (ln : Lane) (e : StoreEngine) (l : LaneId) : Prop where
  preparing : ∀ g, ln.deck.state = .preparing g ↔ e = .prepare g l
  sourced : ln.Sourced

theorem State.storeLawful_iff (s : State) :
    s.storeLawful ↔ s.store.Lawful ∧ ∀ l, (s.lane l).Served s.store.engine l :=
  ⟨fun ⟨wf, below, chars, writing, locked, preparing, prepared, segments, sourced⟩ =>
    ⟨⟨⟨wf, below⟩, chars, writing, locked, prepared, segments⟩, fun l => ⟨preparing l, sourced l⟩⟩,
    fun ⟨⟨⟨wf, below⟩, chars, writing, locked, prepared, segments⟩, served⟩ =>
      ⟨wf, below, chars, writing, locked, fun l => (served l).preparing, prepared, segments, fun l => (served l).sourced⟩⟩

theorem Lane.Agrees.served {a b : Lane} (h : a.Agrees b) {e : StoreEngine} {l : LaneId} (k : a.Served e l) : b.Served e l :=
  ⟨fun g => (h.preparing g).trans (k.preparing g), h.sourced k.sourced⟩

/-- A deck that is not PREPARING, and for which the engine prepares nothing. -/
theorem Lane.served_of_unprepared {ln : Lane} {e : StoreEngine} {l : LaneId} (idle : ln.Unprepared)
    (other : ∀ g, e ≠ .prepare g l) (sourced : ln.Sourced) : ln.Served e l :=
  ⟨fun g => iff_of_false (idle g) (other g), sourced⟩

/-! ## The store's operations -/

section Operations

variable {x : Store}

@[simp] theorem Store.setBuffer_engine (x : Store) (b : BufferId) (y : LoadBuffer) : (x.setBuffer b y).engine = x.engine := by
  cases b <;> rfl
@[simp] theorem Store.setBuffer_text (x : Store) (b : BufferId) (y : LoadBuffer) : (x.setBuffer b y).text = x.text := by
  cases b <;> rfl
@[simp] theorem Store.setBuffer_segment (x : Store) (b : BufferId) (y : LoadBuffer) (g : Nat) :
    (x.setBuffer b y).segment g = x.segment g := by cases b <;> rfl

/-- An address beyond the pages names none. -/
theorem Store.page_of_above (x : Store) {p : Nat} (above : 512 ≤ p) : x.page p = .empty := by
  unfold Store.page
  rw [Vector.getElem?_eq_none above, Option.getD_none]

/-- A COMMIT in flight is to one of the pages. -/
theorem Store.Lawful.committing (h : x.Lawful) {b : BufferId} {p : Nat} (engine : x.engine = .commit b p) : p < 512 := by
  by_contra above
  have writing := (h.writing p).mpr ⟨b, engine⟩
  rw [x.page_of_above (by omega)] at writing
  cases writing

/-- The store after a COMMIT begins or ends: the state of its page, the lock of its buffer, the characters of the pages, and
the engine. -/
def Store.turned (x : Store) (b : BufferId) (p : Nat) (v : PageState) (k : Bool) (text : Memory) (e : StoreEngine) : Store :=
  { (x.setPage p v).setBuffer b { x.buffer b with locked := k } with text := text, engine := e }

section Turned

variable (b c : BufferId) (p q : Nat) (v : PageState) (k : Bool) (text : Memory) (e : StoreEngine)

theorem Store.turned_chars : ((x.turned b p v k text e).buffer c).chars = (x.buffer c).chars := by
  cases b <;> cases c <;> rfl

theorem Store.turned_locked :
    ((x.turned b p v k text e).buffer c).locked = if c = b then k else (x.buffer c).locked := by
  cases b <;> cases c <;> rfl

theorem Store.turned_segment : (x.turned b p v k text e).segment = x.segment := by cases b <;> rfl

theorem Store.turned_page (within : q < 512) : (x.turned b p v k text e).page q = if p = q then v else x.page q :=
  ((x.setPage p v).setBuffer_page b _ q).trans (x.page_setPage p q v within)

end Turned

/-- A COMMIT begins from an engine without one, or the one in flight ends. -/
theorem Store.Lawful.turned (h : x.Lawful) {b : BufferId} {p : Nat} {v : PageState} {k : Bool} {text : Memory} {e : StoreEngine}
    (within : p < 512) (pages : text.Within (96 * 512)) (before : ∀ c q, x.engine = .commit c q → c = b ∧ q = p)
    (after : ∀ c q, e = .commit c q ↔ k = true ∧ c = b ∧ q = p) (page : v = .writing ↔ k = true)
    (prepared : ∀ g l, e ≠ .prepare g l) : (x.turned b p v k text e).Lawful where
  text := pages
  chars c := by rw [Store.turned_chars]; exact h.chars c
  writing q := by
    have writes : (∃ c, e = .commit c q) ↔ k = true ∧ q = p := by simp [after]
    refine Iff.trans ?_ writes.symm
    by_cases below : q < 512
    · rw [Store.turned_page _ _ _ _ _ _ _ below]
      by_cases same : p = q
      · simp [same, page]
      · rw [if_neg same, h.writing q]
        exact iff_of_false (fun ⟨c, was⟩ => same (before c q was).2.symm) fun is => same is.2.symm
    · rw [Store.page_of_above _ (Nat.not_lt.mp below)]
      exact iff_of_false PageState.noConfusion fun is => below (is.2 ▸ within)
  locked c := by
    have locks : (∃ q, e = .commit c q) ↔ k = true ∧ c = b := by simp [after]
    refine Iff.trans ?_ locks.symm
    rw [Store.turned_locked]
    by_cases same : c = b
    · simp [same]
    · rw [if_neg same, h.locked c]
      exact iff_of_false (fun ⟨q, was⟩ => same (before c q was).1) fun is => same is.2
  prepared g l is := absurd is (prepared g l)
  segments := by rw [Store.turned_segment]; exact h.segments

/-- A COMMIT begins (R144). -/
theorem Store.Lawful.commit (h : x.Lawful) (idle : x.engine = .idle) (b : BufferId) {p : Nat} (within : p < 512) :
    (x.turned b p .writing true x.text (.commit b p)).Lawful :=
  h.turned within h.text (fun c q is => by rw [idle] at is; cases is) (fun c q => by simp [eq_comm]) (by simp) nofun

/-- The COMMIT in flight ends, with its page VALID or INVALID (R145, R153). -/
theorem Store.Lawful.endCommit (h : x.Lawful) {b : BufferId} {p : Nat} (flight : x.engine = .commit b p) {v : PageState}
    (written : v ≠ .writing) {text : Memory} (pages : text.Within (96 * 512)) :
    (x.turned b p v false text .idle).Lawful :=
  h.turned (h.committing flight) pages (fun c q is => by rw [flight] at is; cases is; exact ⟨rfl, rfl⟩) (by simp)
    (by simp [written]) nofun

/-- The completion of a COMMIT copies its buffer within its page (R145). -/
theorem Store.Lawful.committed (h : x.Lawful) {b : BufferId} {p : Nat} (flight : x.engine = .commit b p) :
    (x.committed b p).Lawful := by
  have within := h.committing flight
  refine h.endCommit flight (v := .valid) (by simp) (h.text.writeRun _ ?_)
  rw [LoadBuffer.contents, Memory.length_readRun, Config.pageLength]
  omega

/-- A load writes within the buffer (R142). -/
theorem Store.Lawful.load (h : x.Lawful) (b : BufferId) {start : Nat} {run : List Byte} (within : start + run.length ≤ 96) :
    (x.setBuffer b { x.buffer b with chars := (x.buffer b).chars.writeRun start run }).Lawful where
  text := by rw [Store.setBuffer_text]; exact h.text
  chars c := by
    obtain rfl | other := eq_or_ne c b
    · rw [Store.buffer_setBuffer_self]; exact (h.chars c).writeRun run within
    · rw [Store.buffer_setBuffer_of_ne _ _ other]; exact h.chars c
  writing p := by rw [Store.setBuffer_page, Store.setBuffer_engine]; exact h.writing p
  locked c := by
    rw [Store.setBuffer_engine, ← h.locked c]
    obtain rfl | other := eq_or_ne c b
    · rw [Store.buffer_setBuffer_self]
    · rw [Store.buffer_setBuffer_of_ne _ _ other]
  prepared g l is := by rw [Store.setBuffer_segment]; exact h.prepared g l (x.setBuffer_engine b _ ▸ is)
  segments g y is := h.segments g y (x.setBuffer_segment b _ g ▸ is)

/-- The engine goes from one operation to another, neither of them a COMMIT (R143, R146, R150, R151). -/
theorem Store.Lawful.withEngine (h : x.Lawful) {e : StoreEngine} (last : Option CompareResult)
    (before : ∀ b p, x.engine ≠ .commit b p) (after : ∀ b p, e ≠ .commit b p)
    (prepared : ∀ g l, e = .prepare g l → (x.segment g).isSome = true) :
    Store.Lawful { x with engine := e, lastCompare := last } where
  text := h.text
  chars := h.chars
  writing p := (h.writing p).trans (iff_of_false (fun ⟨b, is⟩ => before b p is) fun ⟨b, is⟩ => after b p is)
  locked b := (h.locked b).trans (iff_of_false (fun ⟨p, is⟩ => before b p is) fun ⟨p, is⟩ => after b p is)
  prepared := prepared
  segments := h.segments

theorem Store.segment_setSegment (x : Store) (id g : Nat) (y : Option Segment) (within : id < 64) :
    (x.setSegment id y).segment g = if id = g then y else x.segment g := by
  unfold Store.segment Store.setSegment
  rw [Vector.getElem?_setIfInBounds, if_pos within]
  split <;> rfl

/-- A segment that is not being prepared is defined anew or deleted (R148, R149). -/
theorem Store.Lawful.setSegment (h : x.Lawful) {id : Nat} (y : Option Segment) (within : id < 64)
    (free : x.preparing id = false) (fits : ∀ g, y = some g → g.Fits) : (x.setSegment id y).Lawful where
  text := h.text
  chars := h.chars
  writing := h.writing
  locked := h.locked
  prepared g l is := by
    have flight : x.engine = .prepare g l := is
    have other : id ≠ g := fun same => by simp [Store.preparing, flight, same] at free
    rw [Store.segment_setSegment _ _ _ _ within, if_neg other]
    exact h.prepared g l flight
  segments g z is := by
    rw [Store.segment_setSegment _ _ _ _ within] at is
    split at is
    · exact fits z is
    · exact h.segments g z is

/-- The operation in flight is terminated (R153). -/
theorem Store.Lawful.terminated (h : x.Lawful) : x.terminated.Lawful := by
  unfold Store.terminated
  cases flight : x.engine with
  | idle => exact h
  | commit b p =>
    have same : { (x.setPage p .invalid).setBuffer b { x.buffer b with locked := false } with engine := .idle }
        = x.turned b p .invalid false x.text .idle := by cases b <;> rfl
    have ended := h.endCommit flight (v := .invalid) (by simp) h.text
    rwa [← same] at ended
  | compare b p | prepare g l => exact h.withEngine x.lastCompare (by simp [flight]) nofun nofun

end Operations

end Sys2Proof.Machine
end

section
/-! PROOF. What every command keeps of the store, and from it O5 and O11. -/

namespace Sys2Proof.Machine

/-- The characters of the pages stay, and the laws of the store hold after an act where they held before. -/
structure State.Stores (s t : State) : Prop where
  text : t.store.text = s.store.text
  law : s.storeLawful → t.storeLawful

theorem State.Stores.refl (s : State) : s.Stores s := ⟨rfl, id⟩

theorem State.Stores.trans {s t u : State} (h : s.Stores t) (k : t.Stores u) : s.Stores u :=
  ⟨k.text.trans h.text, k.law ∘ h.law⟩

/-- An act that leaves the store, and the decks in agreement. -/
theorem State.Agrees.stores {s t : State} (h : s.Agrees t) : s.Stores t := by
  refine ⟨congrArg Store.text h.store, fun lawful => ?_⟩
  rw [State.storeLawful_iff] at lawful ⊢
  obtain ⟨store, served⟩ := lawful
  rw [h.store]
  exact ⟨store, fun l => (h.lanes l).served (served l)⟩

/-- An act that leaves the store and the lanes. -/
theorem State.Stores.of_same {s t : State} (store : t.store = s.store) (lanes : t.lanes = s.lanes) : s.Stores t :=
  (State.Agrees.of_same store lanes).stores

theorem foldl_stores {α : Type} (f : State → α → State) (stores : ∀ (s : State) (a : α), s.Stores (f s a)) (as : List α)
    (s : State) : s.Stores (as.foldl f s) := foldl_related .refl .trans f stores as s

/-! ## The store's own acts -/

section Items

variable (s : State)

/-- The store changes, and its engine is preparing as before. -/
theorem State.withStore_stores (x : Store) (text : x.text = s.store.text) (law : s.store.Lawful → x.Lawful)
    (engine : ∀ g l, x.engine = .prepare g l ↔ s.store.engine = .prepare g l) : s.Stores (s.withStore x) := by
  refine ⟨text, fun lawful => ?_⟩
  rw [State.storeLawful_iff] at lawful ⊢
  obtain ⟨store, served⟩ := lawful
  exact ⟨law store, fun l => ⟨fun g => ((served l).preparing g).trans (engine g l).symm, (served l).sourced⟩⟩

/-- A preparation for a lane begins or ends, in the store and on the lane's deck together. -/
theorem State.Stores.of_lane {s t : State} (l : LaneId) (text : t.store.text = s.store.text)
    (law : s.store.Lawful → t.store.Lawful) (others : ∀ m, m ≠ l → t.lane m = s.lane m)
    (before : ∀ g m, s.store.engine = .prepare g m → m = l) (after : ∀ g m, t.store.engine = .prepare g m → m = l)
    (served : (s.lane l).Served s.store.engine l → (t.lane l).Served t.store.engine l) : s.Stores t := by
  refine ⟨text, fun lawful => ?_⟩
  rw [State.storeLawful_iff] at lawful ⊢
  refine ⟨law lawful.1, fun m => ?_⟩
  obtain rfl | other := eq_or_ne m l
  · exact served (lawful.2 m)
  · obtain ⟨preparing, sourced⟩ := lawful.2 m
    rw [others m other]
    exact ⟨fun g => (preparing g).trans (iff_of_false (fun is => other (before g m is)) fun is => other (after g m is)), sourced⟩

theorem loadBufferRequest_stores (p : List Byte) : s.Stores (loadBufferRequest p s).1 := by
  unfold loadBufferRequest
  dsimp only
  split
  · exact .refl s
  · next b _ =>
    split_ifs with long
    · exact .refl s
    · exact .refl s
    · exact s.withStore_stores _ (Store.setBuffer_text ..) (·.load b (Nat.not_lt.mp long)) fun _ _ => by
        rw [Store.setBuffer_engine]

theorem commitRequest_stores (p : List Byte) : s.Stores (commitRequest p s).1 := by
  unfold commitRequest
  dsimp only
  split
  · exact .refl s
  · next b _ =>
    split_ifs with above busy
    · exact .refl s
    · exact .refl s
    · have idle := not_not.mp busy
      have begun : { (s.store.setPage (wordAt p 1) .writing).setBuffer b { s.store.buffer b with locked := true } with
          engine := .commit b (wordAt p 1) }
          = s.store.turned b (wordAt p 1) .writing true s.store.text (.commit b (wordAt p 1)) := by
        cases b <;> rfl
      rw [begun]
      exact s.withStore_stores _ rfl (·.commit idle b (by omega)) fun g l => by simp [idle, Store.turned]

theorem compareRequest_stores (p : List Byte) : s.Stores (compareRequest p s).1 := by
  unfold compareRequest
  dsimp only
  split
  · exact .refl s
  · split_ifs with above valid busy
    · exact .refl s
    · exact .refl s
    · exact .refl s
    · have idle := not_not.mp busy
      exact s.withStore_stores _ rfl (·.withEngine _ (by simp [idle]) nofun nofun) fun g l => by simp [idle]

theorem defineSegmentRequest_stores (p : List Byte) : s.Stores (defineSegmentRequest p s).1 := by
  unfold defineSegmentRequest
  dsimp only
  split_ifs with above range busy
  · exact .refl s
  · exact .refl s
  · exact .refl s
  · refine s.withStore_stores _ rfl (·.setSegment _ (by omega) (by simpa using busy) fun g is => ?_) fun _ _ => .rfl
    obtain rfl := Option.some.inj is
    unfold Segment.Fits
    dsimp only
    omega

theorem deleteSegmentRequest_stores (p : List Byte) : s.Stores (deleteSegmentRequest p s).1 := by
  unfold deleteSegmentRequest
  dsimp only
  split_ifs with above busy
  · exact .refl s
  · exact .refl s
  · exact s.withStore_stores _ rfl (·.setSegment _ (by omega) (by simpa using busy) nofun) fun _ _ => .rfl

/-- What the checks of a PREPARE let pass (R150). -/
theorem prepareRefusal_none {s : State} {id : Nat} {l : LaneId} (h : prepareRefusal s id l = none) :
    (s.store.segment id).isSome = true ∧ (∀ g, (s.lane l).deck.state ≠ .playing g) ∧ s.store.engine = .idle := by
  unfold prepareRefusal at h
  split at h
  · cases h
  · next y defined =>
    split_ifs at h with writing invalid playing busy
    refine ⟨by rw [defined]; rfl, fun g plays => playing ?_, not_not.mp busy⟩
    rw [Deck.isPlaying, plays]

theorem prepareRequest_stores (p : List Byte) : s.Stores (prepareRequest p s).1 := by
  unfold prepareRequest
  dsimp only
  split
  · exact .refl s
  · next l _ =>
    split
    · exact .refl s
    · split
      · exact .refl s
      · next allowed =>
        obtain ⟨defined, silent, idle⟩ := prepareRefusal_none allowed
        refine .of_lane l ?_ ?_ (fun m other => State.onLane_lane_of_ne _ _ other) (fun g m is => ?_) (fun g m is => ?_) ?_
        · simp [State.withStore]
        · rw [State.onLane_store]
          refine (·.withEngine s.store.lastCompare (by simp [idle]) nofun fun g m is => ?_)
          cases is
          exact defined
        · rw [idle] at is; cases is
        · rw [State.onLane_store] at is; cases is; rfl
        · rw [State.onLane_lane_self, State.onLane_store]
          exact fun ⟨_, sourced⟩ => ⟨fun g => by simp [startPreparing, LaneRun.editDeck, Deck.without, State.withStore],
            iff_of_false (fun script => (sourced.mp script).elim silent) nofun⟩

/-- STORE-RESET terminates the operation in flight (R153). -/
theorem State.resetStore_store : s.resetStore.store = s.store.terminated := by rw [State.resetStore_eq]

theorem State.resetStore_stores : s.Stores s.resetStore := by
  obtain ⟨ended, text, -, -⟩ := s.store.terminated_keeps
  have unprepared (idle : ∀ g l, s.store.engine ≠ .prepare g l) : s.Stores (s.withStore s.store.terminated) :=
    s.withStore_stores _ text (·.terminated) fun g l => iff_of_false (by simp [ended]) (idle g l)
  unfold State.resetStore
  dsimp only
  split
  · exact .refl s
  · next flight => exact (unprepared (by simp [flight])).trans (State.report_agrees ..).stores
  · next flight => exact (unprepared (by simp [flight])).trans (State.report_agrees ..).stores
  · next id l flight =>
    refine .trans (t := (s.withStore s.store.terminated).onLane l abandonDeck) (.of_lane l ?_ ?_ (fun m other =>
      State.onLane_lane_of_ne _ _ other) (fun g m is => ?_) (fun g m is => ?_) ?_) (State.report_agrees ..).stores
    · rw [State.onLane_store]; exact text
    · rw [State.onLane_store]; exact (·.terminated)
    · rw [flight] at is; cases is; rfl
    · rw [State.onLane_store] at is; exact absurd (ended.symm.trans is) nofun
    · rw [State.onLane_lane_self, State.onLane_store]
      intro ⟨preparing, sourced⟩
      have prepares := (preparing id).mpr flight
      have abandoned := dropTake_agrees ((s.withStore s.store.terminated).env l)
        (LaneRun.editDeck { lane := s.lane l, out := [] } fun d => d.without .empty)
      refine Lane.served_of_unprepared (abandoned.unprepared nofun) (fun g is => ?_) (abandoned.sourced
        (iff_of_false (fun script => ?_) nofun))
      · exact absurd (ended.symm.trans is) nofun
      · obtain ⟨g, plays⟩ := sourced.mp script
        exact absurd (prepares.symm.trans plays) nofun

/-- R150, R158: the deck of a lane whose preparation is complete. -/
theorem State.completePrepare_stores : s.Stores s.completePrepare := by
  unfold State.completePrepare
  split
  · next id l flight =>
    dsimp only
    generalize layoutScript (s.env l) (s.lane l).params id (s.store.preparedText id) = laid
    generalize filled : State.withStore (s.onLane l (fillDeck id laid.1)) _ = t
    have store : t.store = { s.store with engine := .idle } := filled ▸ rfl
    have lane : t.lane l = { s.lane l with deck := (s.lane l).deck.laidOut id laid.1 } :=
      filled ▸ s.onLane_lane_self l (fillDeck id laid.1)
    have begun : s.Stores t := by
      refine .of_lane l (by rw [store]) ?_ (fun m other => ?_) (fun g m is => ?_) (fun g m is => ?_) ?_
      · rw [store]; exact (·.withEngine s.store.lastCompare (by simp [flight]) nofun nofun)
      · subst filled; exact s.onLane_lane_of_ne _ other
      · rw [flight] at is; cases is; rfl
      · rw [store] at is; cases is
      · rw [store, lane]
        intro ⟨preparing, sourced⟩
        have prepares := (preparing id).mpr flight
        refine Lane.served_of_unprepared nofun nofun (iff_of_false (fun script => ?_) nofun)
        obtain ⟨g, plays⟩ := sourced.mp script
        exact absurd (prepares.symm.trans plays) nofun
    generalize reported : t.report .storeDone _ _ _ = u
    have ready : (u.lane l).Unprepared := by rw [← reported, State.report_lane, lane]; exact nofun
    exact begun.trans <| .trans (reported ▸ (t.report_agrees ..).stores) (u.onLane_agrees_at _ _
      (afterPrepare_agrees (u.env l) { lane := u.lane l, out := [] } _ _ _ ready)).stores
  · exact .refl s

theorem State.completeCompare_stores : s.Stores s.completeCompare := by
  unfold State.completeCompare
  split
  · next flight =>
    refine .trans (t := s.withStore _) ?_ (State.report_agrees ..).stores
    exact s.withStore_stores _ rfl (·.withEngine _ (by simp [flight]) nofun nofun) fun g l => by simp [flight]
  · exact .refl s

/-- The completion of a COMMIT keeps the laws, though not the text (R145). -/
theorem State.completeCommit_lawful (lawful : s.storeLawful) : s.completeCommit.storeLawful := by
  unfold State.completeCommit
  split
  · next b p flight =>
    refine (State.report_agrees ..).stores.law ?_
    rw [State.storeLawful_iff] at lawful ⊢
    obtain ⟨store, served⟩ := lawful
    refine ⟨store.committed flight, fun l => ⟨fun g => ?_, (served l).sourced⟩⟩
    exact ((served l).preparing g).trans (iff_of_false (by simp [flight]) nofun)
  · exact lawful

/-- R169, R191: once the engine is IDLE, decks that are all EMPTY agree with it. -/
theorem State.resetBlocks_stores (idle : s.store.engine = .idle) : s.Stores s.resetBlocks := by
  refine ⟨rfl, fun lawful => ?_⟩
  rw [State.storeLawful_iff] at lawful ⊢
  refine ⟨lawful.1, fun l => ?_⟩
  rw [State.resetBlocks_lane]
  exact Lane.served_of_unprepared nofun (fun g is => absurd (idle.symm.trans is) nofun) (Lane.sourced_live rfl nofun)

theorem engineResetRequest_stores (p : List Byte) : s.Stores (engineResetRequest p s).1 := by
  have idle : s.resetStore.store.engine = .idle := by rw [State.resetStore_store]; exact s.store.terminated_keeps.1
  exact s.resetStore_stores.trans <| (State.resetBlocks_stores _ idle).trans <| (announceChanges_agrees ..).stores.trans <|
    .trans (t := { (_ : State) with reports := [], reportOverflow := false }) (.of_same rfl rfl)
      (State.report_agrees ..).stores

end Items

/-- Every request of the table. -/
theorem requestHandler_stores (kind : Byte) (handle : List Byte → State → State × Reply)
    (h : requestHandler kind = some handle) (p : List Byte) (s : State) : s.Stores (handle p s).1 := by
  unfold requestHandler at h
  split at h
  any_goals obtain rfl := Option.some.inj h
  · exact (configureLaneRequest_agrees p s).stores
  · exact (configureWriterRequest_agrees p s).stores
  · exact (setStyleRequest_agrees p s).stores
  · exact .of_same rfl rfl
  · exact (setFrameRateRequest_agrees p s).stores
  · exact (setSupervisionRequest_agrees p s).stores
  · exact (assignRequest_agrees p s).stores
  · exact (handoverRequest_agrees p s).stores
  · exact (startRequest_agrees p s).stores
  · exact (stopRequest_agrees p s).stores
  · exact loadBufferRequest_stores s p
  · exact commitRequest_stores s p
  · exact compareRequest_stores s p
  · exact defineSegmentRequest_stores s p
  · exact deleteSegmentRequest_stores s p
  · exact prepareRequest_stores s p
  · exact s.resetStore_stores
  · exact .of_same rfl rfl
  · exact (releaseRequest_agrees p s).stores
  · exact .of_same rfl rfl
  · exact (statusRequest_agrees p s).stores
  · exact (clearCountersRequest_agrees p s).stores
  · exact engineResetRequest_stores s p
  · cases h

/-! ## Frames -/

section Frames

variable (s : State)

/-- A frame that is held back, refused or handed on and answered. -/
theorem State.serve_stores (kind : Byte) (ok : Bool) (p : List Byte) (handle : List Byte → State → State × Reply)
    (stores : s.Stores (handle p s).1) : s.Stores (s.serve kind ok p handle) := by
  unfold State.serve
  split
  · exact .refl s
  · split
    · exact stores.trans (.of_same rfl rfl)
    · exact .of_same rfl rfl

theorem State.request_stores (kind : Byte) (p : List Byte) (handle : List Byte → State → State × Reply)
    (h : requestHandler kind = some handle) : s.Stores (s.request kind p handle) :=
  s.automationGood_agrees.stores.trans (State.serve_stores _ _ _ _ _ (requestHandler_stores kind handle h p _))

theorem State.frameClosed_stores (k : Link) : s.Stores (s.frameClosed k) := .of_same rfl rfl

theorem requestRow_stores (kind : Byte) (p : List Byte) (handle : List Byte → State → State × Reply)
    (h : requestHandler kind = some handle) : s.Stores (requestRow kind p handle s) :=
  (s.frameClosed_stores .automation).trans (State.request_stores _ kind p handle h)

theorem State.cueFrame_stores (broadcast : Bool) (p : List Byte) : s.Stores (s.cueFrame broadcast p) := by
  have taken := (takeCueFrame_agrees s.automationGood p).stores
  unfold State.cueFrame
  split
  · exact s.automationGood_agrees.stores.trans taken
  · exact s.automationGood_agrees.stores.trans (State.serve_stores _ _ _ _ _ taken)

theorem cueRow_stores (kind : CueKind) (broadcast : Bool) (rest : List Byte) : s.Stores (cueRow kind broadcast rest s) :=
  (s.frameClosed_stores .automation).trans (State.cueFrame_stores ..)

theorem State.automationFrame_stores (kind : Byte) (p : List Byte) : s.Stores (s.automationFrame kind p) := by
  unfold State.automationFrame
  split
  · exact s.cueFrame_stores false p
  · split
    · next handle h => exact s.request_stores kind p handle h
    · unfold State.refuseKind
      dsimp only
      refine s.automationGood_agrees.stores.trans ?_
      split <;> exact .of_same rfl rfl

theorem State.receiverEvent_stores (k : Link) (e : RxEvent) : s.Stores (State.receiverEvent k s e) := by
  cases e with
  | abort | checkError | sizeError => exact .of_same rfl rfl
  | frame address kind p =>
    unfold State.receiverEvent State.filterFrame
    dsimp only
    split
    · cases k with
      | writer w => exact .trans (t := s.countGood (.writer w)) (.of_same rfl rfl) (State.takeMessage_agrees ..).stores
      | automation => exact s.automationFrame_stores kind p
      | inserter l => exact (s.inserterFrame_agrees l kind p).stores
    · split
      · split
        · exact s.cueFrame_stores true p
        · exact s.restartSupervision_agrees.stores
      · exact .refl s

theorem State.receive_stores (k : Link) (line : List LineByte) : s.Stores (s.receive k line) :=
  .trans (t := s.setLink k _) (.of_same rfl rfl)
    (foldl_stores (State.receiverEvent k) (fun s e => s.receiverEvent_stores k e) _ _)

end Frames

/-! ## Commands -/

/-- Every command but POWER_ON and COMMIT_COMPLETION keeps the text, and the laws of the store. -/
theorem exec_stores (c : Instr) (s t : State) (notPowerOn : ∀ straps, c ≠ .powerOn straps) (notCommit : c ≠ .commitCompletion)
    (h : exec c s = .next t) : s.Stores t := by
  have stores (u : State) (e : exec c s = .next u) (k : s.Stores u) : s.Stores t :=
    Host.Outcome.next.inj (e.symm.trans h) ▸ k
  have agrees (u : State) (e : exec c s = .next u) (k : s.Agrees u) : s.Stores t := stores u e k.stores
  have good (w : WriterId) : s.Agrees (s.goodFrame (.writer w)) := .of_same rfl rfl
  have closed (k : Link) : s.Agrees (s.frameClosed k) := .of_same rfl rfl
  cases c with
  | powerOn straps => exact absurd rfl (notPowerOn straps)
  | commitCompletion => exact absurd rfl notCommit
  | pulseArrival tc => exact agrees _ rfl (s.withTime_agrees _)
  | pulseSupervisionExpiry | internalGeneratorExpiry =>
    refine agrees _ rfl ?_
    split
    · exact s.withTime_agrees _
    · exact .refl s
  | sameFrameWindowClose => exact agrees _ rfl (.of_same rfl rfl)
  | flushTimerExpiry l => exact agrees _ rfl (s.onLane_agrees _ _ flushExpiry_agrees)
  | correctionWindowExpiry l =>
    refine agrees _ rfl ?_
    split
    · exact s.onLane_agrees _ _ timeDue_agrees
    · exact .refl s
  | cueScheduleDue =>
    have left : s.Agrees { s with schedule := (dueCues s.time.sfc s.schedule).2 } := .of_same rfl rfl
    exact agrees _ (exec_cueScheduleDue s)
      (left.trans (foldl_agrees (fun s (e : ScheduledCue) => s.executeCue e.cue) (fun s e => s.executeCue_agrees e.cue) _ _))
  | automationSupervisionExpiry =>
    refine agrees _ rfl ?_
    split
    · exact .refl s
    · split
      · exact s.withdraw_agrees true
      · exact .refl s
  | word w p => exact agrees _ rfl ((good w).trans (State.takeWord_agrees ..))
  | breakMark w p => exact agrees _ rfl ((good w).trans (State.takeBreak_agrees ..))
  | speaker w p => exact agrees _ rfl ((good w).trans (State.takeSpeaker_agrees ..))
  | delete w p => exact agrees _ rfl ((good w).trans (State.takeDelete_agrees ..))
  | writerTake w p => exact agrees _ rfl ((good w).trans (State.takeTake_agrees ..))
  | query w p => exact agrees _ rfl ((good w).trans (State.takeQuery_agrees ..))
  | writerFrameRefused w kind p => exact agrees _ rfl ((good w).trans (State.takeMessage_agrees ..))
  | inserterRequest l p | inserterFrameRefused l kind p =>
    exact agrees _ rfl ((closed _).trans (State.inserterFrame_agrees ..))
  | compareCompletion => exact stores _ rfl s.completeCompare_stores
  | prepareCompletion => exact stores _ rfl s.completePrepare_stores
  | transmitFrame k =>
    refine agrees _ rfl ?_
    unfold State.transmit
    split <;> exact .of_same rfl rfl
  | configureLane p | configureWriter p | setStyle p | setStyleLimit p | setFrameRate p | setSupervision p
  | assign p | handover p | start p | stop p | loadBuffer p | commit p | compare p | defineSegment p
  | deleteSegment p | prepare p | storeReset p | cancelCue p | release p | poll p | status p | clearCounters p
  | engineReset p =>
    exact stores _ rfl (requestRow_stores s _ p _ rfl)
  | automationFrameRefused kind p => exact stores _ rfl ((s.frameClosed_stores _).trans (State.automationFrame_stores ..))
  | freeze b rest | thaw b rest | hold b rest | resume b rest | stepCue b rest | clear b rest | join b rest
  | split b rest | takeCue b rest | advance b rest | endCue b rest =>
    exact stores _ rfl (cueRow_stores s _ b rest)
  | abort k line | checkError k line | sizeError k line | frameIgnored k line => exact stores _ rfl (s.receive_stores k line)
  | flagArrival k => exact stores _ rfl (s.receive_stores k _)

/-- Settles O5, from what every other command keeps. -/
theorem pagesChangeOnlyAtCommitCompletion : Obligations.PagesChangeOnlyAtCommitCompletion := by
  unfold Obligations.PagesChangeOnlyAtCommitCompletion
  intro c s t notPowerOn notCommit h
  exact (exec_stores c s t notPowerOn notCommit h).text

/-- Every command keeps the laws of the store. -/
theorem exec_storeLawful (c : Instr) (s t : State) (h : exec c s = .next t) (lawful : s.storeLawful) : t.storeLawful := by
  by_cases power : ∃ straps, c = .powerOn straps
  · obtain ⟨straps, rfl⟩ := power
    obtain rfl := Host.Outcome.next.inj h
    exact State.powerOn_storeLawful straps
  · by_cases completion : c = .commitCompletion
    · subst completion
      obtain rfl := Host.Outcome.next.inj h
      exact s.completeCommit_lawful lawful
    · exact (exec_stores c s t (fun straps is => power ⟨straps, is⟩) completion h).law lawful

/-- Settles O11, from what every command keeps. -/
theorem storeStaysLawful : Obligations.StoreStaysLawful := by
  unfold Obligations.StoreStaysLawful
  intro s t lawful h
  cases queue : s.pending with
  | nil =>
    obtain rfl : s = t := by simpa [step, queue] using h
    exact lawful
  | cons c rest =>
    have run : exec c { s with pending := rest } = .next t := by simpa [step, queue] using h
    exact exec_storeLawful c _ t run lawful

end Sys2Proof.Machine
end

section
/-! PROOF. The requests and completions of the store, one by one (R142 to R149, R153): O40 to O44. -/

namespace Sys2Proof.Machine

/-! ## Operands -/

@[simp] theorem bufferOf_code (b : BufferId) : bufferOf b.code = some b := by cases b <;> rfl

/-- A buffer's code is its byte's value. -/
@[simp] theorem BufferId.code_mod (b : BufferId) : b.code % 256 = b.code := by cases b <;> rfl

/-- A payload that begins with the code of a buffer names it (R183). -/
@[simp] theorem bufferOf_byteAt (b : BufferId) (rest : List Byte) :
    bufferOf (byteAt (BitVec.ofNat 8 b.code :: rest) 0) = some b := by simp [byteAt]

/-! ## LOAD-BUFFER (R142) -/

section Load

variable {s : State} {b : BufferId} {start : Byte} {run : List Byte}

theorem loadBufferRequest_of_free (free : (s.store.buffer b).locked = false) (fits : start.toNat + run.length ≤ 96) :
    loadBufferRequest (BitVec.ofNat 8 b.code :: start :: run) s = (s.withStore (s.store.setBuffer b
      { s.store.buffer b with chars := (s.store.buffer b).chars.writeRun start.toNat run }), .ack none) := by
  have within : ¬ Config.pageLength < start.toNat + run.length := Nat.not_lt.mpr fits
  have unlocked : ¬ (s.store.buffer b).locked = true := by rw [free]; exact Bool.false_ne_true
  simp only [loadBufferRequest, bufferOf_byteAt]
  exact (if_neg within).trans (if_neg unlocked)

theorem exec_loadBuffer_of_free (room : s.canAnswer) (free : (s.store.buffer b).locked = false)
    (fits : start.toNat + run.length ≤ 96) : exec (.loadBuffer (BitVec.ofNat 8 b.code :: start :: run)) s = .next
      { s.answered (ackOf 0x2A none) with
        store := s.store.setBuffer b { s.store.buffer b with chars := (s.store.buffer b).chars.writeRun start.toNat run } } := by
  have length : requestLengthOk 0x2A (BitVec.ofNat 8 b.code :: start :: run).length = true := by
    simp only [List.length_cons]
    exact decide_eq_true (by omega)
  exact congrArg _ (requestRow_of_ack 0x2A _ _ s _ none room length
    (loadBufferRequest_of_free (s := s.heard) free fits))

end Load

/-- Settles O40. -/
theorem loadBufferWritesTheRun : Obligations.LoadBufferWritesTheRun := by
  unfold Obligations.LoadBufferWritesTheRun
  intro s b start run room free wf fits
  refine ⟨_, exec_loadBuffer_of_free room free fits, ?_⟩
  dsimp only
  rw [Store.buffer_setBuffer_self]
  exact ⟨rfl, free, fun a => Memory.read_writeRun _ _ _ _ wf⟩

/-! ## COMMIT and STORE-RESET (R143, R144, R153) -/

section Commit

variable {s : State} {b : BufferId}

theorem commitRequest_of_idle {lo hi : Byte} (page : lo.toNat + 256 * hi.toNat ≤ 511) (idle : s.store.engine = .idle) :
    commitRequest [BitVec.ofNat 8 b.code, lo, hi] s = (s.withStore
      { (s.store.setPage (lo.toNat + 256 * hi.toNat) .writing).setBuffer b { s.store.buffer b with locked := true } with
        engine := .commit b (lo.toNat + 256 * hi.toNat) }, .ack none) := by
  simp only [commitRequest, bufferOf_byteAt, wordAt_one, Nat.not_lt.mpr page, idle, ne_eq, not_true_eq_false, if_false]

/-- The value of an operation that has no outcome of its own (R147). -/
theorem storeValue_zero (operation object : Nat) : storeValue operation 0 object = operation * 16777216 + object := by
  simp [storeValue]

theorem State.resetStore_of_commit {page : Nat} (flight : s.store.engine = .commit b page) (report : s.canReport) :
    s.resetStore = { s with
      store := { (s.store.setPage page .invalid).setBuffer b { s.store.buffer b with locked := false } with engine := .idle }
      reports := s.reports ++ [s.note .storeAbandoned none none (some (1 * 16777216 + page))] } := by
  simp only [State.resetStore, Store.terminated, flight, storeValue_zero]
  exact State.report_of_room _ _ _ _ _ report

end Commit

/-- Settles O41. -/
theorem commitAndStoreReset : Obligations.CommitAndStoreReset := by
  unfold Obligations.CommitAndStoreReset
  intro s b room
  refine ⟨fun lo hi page idle => ?_, fun page flight report => ?_⟩
  · refine (congrArg _ (requestRow_of_ack 0x2B _ _ s _ none room rfl
      (commitRequest_of_idle (s := s.heard) page idle))).trans ?_
    cases b <;> rfl
  · have acked : storeResetRequest [] s.heard = (s.heard.resetStore, .ack none) := rfl
    rw [State.resetStore_of_commit (s := s.heard) flight report] at acked
    refine (congrArg _ (requestRow_of_ack 0x30 _ _ s _ none room rfl acked)).trans ?_
    cases b <;> rfl

/-! ## The completion of a COMMIT (R145, R147) -/

/-- The characters of a run copied from one memory into another (R145). -/
theorem Memory.read_writeRun_readRun (m c : Memory) (start n x : Nat) (wf : m.wf = true) :
    (m.writeRun start (c.readRun 0 n)).read x = if start ≤ x ∧ x < start + n then c.read (x - start) else m.read x := by
  rw [Memory.read_writeRun _ _ _ _ wf, Memory.length_readRun]
  split
  · next inside => rw [Memory.getD_readRun _ _ _ _ (by omega), Nat.zero_add]
  · rfl

theorem Store.committed_text (x : Store) (b : BufferId) (page : Nat) : (x.committed b page).text
    = x.text.writeRun (96 * page) ((x.buffer b).chars.readRun 0 96) := by
  simp only [Store.committed, LoadBuffer.contents, Config.pageLength]

/-- What else of the store the completion of a COMMIT changes (R145). -/
theorem Store.committed_eq (x : Store) (b : BufferId) (page : Nat) : x.committed b page =
    { (x.setBuffer b { x.buffer b with locked := false }) with
      pages := x.pages.setIfInBounds page .valid, text := (x.committed b page).text, engine := .idle } := by
  rw [Store.committed_text, Store.committed]
  simp only [LoadBuffer.contents, Config.pageLength]
  generalize x.text.writeRun (96 * page) ((x.buffer b).chars.readRun 0 96) = text
  cases b <;> rfl

theorem State.completeCommit_of_flight {s : State} {b : BufferId} {page : Nat} (flight : s.store.engine = .commit b page)
    (report : s.canReport) : s.completeCommit = { s with
      store := s.store.committed b page
      reports := s.reports ++ [s.note .storeDone none none (some (1 * 16777216 + page))] } := by
  simp only [State.completeCommit, flight, storeValue_zero]
  exact State.report_of_room _ _ _ _ _ report

/-- Settles O42. -/
theorem commitCompletionCopiesTheBuffer : Obligations.CommitCompletionCopiesTheBuffer := by
  unfold Obligations.CommitCompletionCopiesTheBuffer
  intro s b page flight wf report
  refine ⟨_, congrArg Host.Outcome.next (State.completeCommit_of_flight flight report), ?_, fun a => ?_⟩
  · exact congrArg (fun x : Store => { s with
      store := x, reports := s.reports ++ [s.note .storeDone none none (some (1 * 16777216 + page))] })
      (s.store.committed_eq b page)
  · dsimp only
    rw [Store.committed_text]
    exact Memory.read_writeRun_readRun _ _ _ _ _ wf

/-! ## COMPARE (R143, R146, R147) -/

/-- Two runs of the same length without a first difference are equal (R146). -/
theorem eq_of_firstDifference_none {as bs : List Byte} (length : as.length = bs.length) {i : Nat}
    (equal : firstDifference i as bs = none) : as = bs := by
  induction as generalizing bs i with
  | nil => exact (List.length_eq_zero_iff.mp length.symm).symm
  | cons a as ih =>
    cases bs with
    | nil => cases length
    | cons b bs =>
      unfold firstDifference at equal
      split at equal
      · next same => rw [same, ih (Nat.succ.inj length) equal]
      · cases equal

/-- The first difference, counted from `i`, is at a place in both runs, where they differ, and they agree before it (R146). -/
theorem firstDifference_some {as bs : List Byte} {i d : Nat} (differ : firstDifference i as bs = some d) :
    ∃ k, d = i + k ∧ k < as.length ∧ as.getD k 0 ≠ bs.getD k 0 ∧ ∀ j, j < k → as.getD j 0 = bs.getD j 0 := by
  induction as generalizing bs i with
  | nil => cases differ
  | cons a as ih =>
    cases bs with
    | nil => cases differ
    | cons b bs =>
      unfold firstDifference at differ
      split at differ
      · next same =>
        obtain ⟨k, place, within, apart, before⟩ := ih differ
        refine ⟨k + 1, by omega, Nat.succ_lt_succ within, apart, fun j below => ?_⟩
        cases j with
        | zero => exact same
        | succ j => exact before j (by omega)
      · next apart =>
        obtain rfl := Option.some.inj differ
        exact ⟨0, rfl, Nat.zero_lt_succ _, apart, nofun⟩

section Compare

variable {s : State} {b : BufferId}

theorem compareRequest_of_idle {lo hi : Byte} (page : lo.toNat + 256 * hi.toNat ≤ 511)
    (valid : s.store.page (lo.toNat + 256 * hi.toNat) = .valid) (idle : s.store.engine = .idle) :
    compareRequest [BitVec.ofNat 8 b.code, lo, hi] s
      = (s.withStore { s.store with engine := .compare b (lo.toNat + 256 * hi.toNat) }, .ack none) := by
  simp only [compareRequest, bufferOf_byteAt, wordAt_one, Nat.not_lt.mpr page, valid, idle, ne_eq, not_true_eq_false, if_false]

theorem LoadBuffer.getD_contents (x : LoadBuffer) {i : Nat} (within : i < 96) : x.contents.getD i 0 = x.chars.read i :=
  (Memory.getD_readRun _ _ _ _ within).trans (congrArg _ (Nat.zero_add i))

theorem Store.getD_pageChars (x : Store) (page : Nat) {i : Nat} (within : i < 96) :
    (x.pageChars page).getD i 0 = x.text.read (96 * page + i) := Memory.getD_readRun _ _ _ _ within

theorem State.completeCompare_of_flight {page : Nat} (flight : s.store.engine = .compare b page) (report : s.canReport) :
    s.completeCompare = { s with
      store := { s.store with engine := .idle, lastCompare := some (s.store.compareNow b page s.time.sfc) }
      reports := s.reports ++ [s.note .storeDone none none
        (some (2 * 16777216 + (if (s.store.compareNow b page s.time.sfc).isMatch then 1 else 2) * 65536 + page))] } := by
  simp only [State.completeCompare, flight]
  exact State.report_of_room _ _ _ _ _ report

end Compare

/-- Settles O43. -/
theorem compareFindsTheFirstDifference : Obligations.CompareFindsTheFirstDifference := by
  unfold Obligations.CompareFindsTheFirstDifference
  refine ⟨fun s b lo hi room page valid idle => ?_, fun s b page flight report => ?_⟩
  · exact congrArg _ (requestRow_of_ack 0x2C _ _ s _ none room rfl
      (compareRequest_of_idle (s := s.heard) page valid idle))
  · have length : (s.store.buffer b).contents.length = (s.store.pageChars page).length := by
      simp [LoadBuffer.contents, Store.pageChars]
    refine ⟨firstDifference 0 (s.store.buffer b).contents (s.store.pageChars page),
      congrArg Host.Outcome.next (State.completeCompare_of_flight flight report), fun equal i within => ?_, fun i differ => ?_⟩
    · rw [← LoadBuffer.getD_contents _ within, eq_of_firstDifference_none length equal, Store.getD_pageChars _ _ within]
    · obtain ⟨k, place, within, apart, before⟩ := firstDifference_some differ
      obtain rfl : i = k := place.trans (Nat.zero_add k)
      have below : i < 96 := by simpa [LoadBuffer.contents, Config.pageLength] using within
      rw [LoadBuffer.getD_contents _ below, Store.getD_pageChars _ _ below] at apart
      refine ⟨below, apart, fun j first => ?_⟩
      rw [← LoadBuffer.getD_contents _ (first.trans below), before j first, Store.getD_pageChars _ _ (first.trans below)]

/-! ## DEFINE-SEGMENT and DELETE-SEGMENT (R148, R149) -/

/-- A segment is being prepared for one of the lanes (R148). -/
theorem Store.preparing_iff (x : Store) (id : Nat) :
    x.preparing id = true ↔ x.engine = .prepare id .lane0 ∨ x.engine = .prepare id .lane1 := by
  unfold Store.preparing
  split
  · next g l flight => cases l <;> simp [flight]
  · next other => exact iff_of_false Bool.false_ne_true fun is => is.elim (other _ _) (other _ _)

section Segments

variable (s : State) (id lo hi count : Byte)

theorem defineSegmentRequest_eq : defineSegmentRequest [id, lo, hi, count] s =
    if 63 < id.toNat then (s, .refused .badField)
    else if count.toNat = 0 ∨ 32 < count.toNat ∨ 512 < lo.toNat + 256 * hi.toNat + count.toNat then (s, .refused .segmentRange)
    else if s.store.engine = .prepare id.toNat .lane0 ∨ s.store.engine = .prepare id.toNat .lane1 then (s, .refused .segmentBusy)
    else (s.withStore (s.store.setSegment id.toNat (some { first := lo.toNat + 256 * hi.toNat, count := count.toNat })),
      .ack none) := by
  simp only [← Store.preparing_iff]
  rfl

theorem deleteSegmentRequest_eq : deleteSegmentRequest [id] s =
    if 63 < id.toNat then (s, .refused .badField)
    else if s.store.engine = .prepare id.toNat .lane0 ∨ s.store.engine = .prepare id.toNat .lane1 then (s, .refused .segmentBusy)
    else (s.withStore (s.store.setSegment id.toNat none), .ack none) := by
  simp only [← Store.preparing_iff]
  rfl

end Segments

/-- Settles O44, check by check. -/
theorem segmentTableRequests : Obligations.SegmentTableRequests := by
  unfold Obligations.SegmentTableRequests
  intro s id room
  refine ⟨fun lo hi count => ?_, ?_⟩
  · refine congrArg Host.Outcome.next ((requestRow_of_room 0x2D _ _ s room rfl).trans ?_)
    rw [defineSegmentRequest_eq, State.heard_store]
    split_ifs <;> rfl
  · refine congrArg Host.Outcome.next ((requestRow_of_room 0x2E _ _ s room rfl).trans ?_)
    rw [deleteSegmentRequest_eq, State.heard_store]
    split_ifs <;> rfl

end Sys2Proof.Machine
end

section
/-! PROOF. The serial links (R172 to R180): a frame is read back as it was sent (O13), the transmitter sends the frame that
has waited longest (O15), what ends a frame without delivering it is only counted (O16), and an inserter's frame of another
kind or length is refused (O60). -/

namespace Sys2Proof.Machine

/-- Settles O13: the opening flag, the stuffed body and the closing flag in turn. -/
theorem lineFrameRoundTrip : Obligations.LineFrameRoundTrip := by
  unfold Obligations.LineFrameRoundTrip
  exact fun r address kind p between fits => r.run_lineFrame address kind p between fits

/-! ## The transmitter (R179) -/

/-- With frames waiting, the first of them goes to the line and the others stay (R179). -/
theorem State.transmit_of_waiting (s : State) (k : Link) {f : TxFrame} {rest : List TxFrame}
    (waits : (s.link k).waiting = f :: rest) :
    s.transmit k = s.setLink k { s.link k with waiting := rest, line := s.sentFrame f } := by
  rw [State.transmit, waits]

/-- Settles O15: a receiver that hunts finds the frame that stands on the line. -/
theorem transmitSendsEarliestFrame : Obligations.TransmitSendsEarliestFrame := by
  unfold Obligations.TransmitSendsEarliestFrame
  intro s k f rest waits _ _ fits
  have sent : ((s.transmit k).link k).line = s.sentFrame f := by
    rw [s.transmit_of_waiting k waits, State.link_setLink_self]
  refine ⟨s.transmit k, rfl, ?_, ?_⟩
  · rw [sent, s.transmit_of_waiting k waits]
  · rw [sent, State.sentFrame, Receiver.hunting.run_lineFrame _ _ _ rfl fits]
    rfl

/-! ## What a body is judged to be (R174, R175) -/

theorem judgeBody_of_short (body : List Byte) (short : body.length ≤ 3) : judgeBody body = .sizeError := by
  match body, short with
  | [], _ | [_], _ | [_, _], _ | [_, _, _], _ => rfl

theorem judgeBody_of_mismatch (body : List Byte) (whole : 4 ≤ body.length)
    (mismatch : body.drop (body.length - 2) ≠ checkBytes (crc (body.take (body.length - 2)))) :
    judgeBody body = .checkError := by
  have two : 2 ≤ (body.take (body.length - 2)).length := by rw [List.length_take]; omega
  unfold judgeBody
  split
  next address kind payload eq =>
    rw [eq] at mismatch
    exact if_neg mismatch
  next noHead =>
    match body.take (body.length - 2), two, noHead with
    | address :: kind :: payload, _, noHead => exact (noHead address kind payload rfl).elim

/-! ## Frames cut short, whole and too long (R173, R174) -/

theorem stuff_append (as bs : List Byte) : stuff (as ++ bs) = stuff as ++ stuff bs := by
  induction as with
  | nil => rfl
  | cons a as ih => rw [List.cons_append, stuff, ih, stuff, List.append_assoc]

/-- Stuffing leaves no flag in a body (R172). -/
theorem flagByte_not_mem_stuff (bs : List Byte) : flagByte ∉ stuff bs := by
  induction bs with
  | nil => exact List.not_mem_nil
  | cons b bs ih =>
    refine List.not_mem_append ?_ ih
    unfold stuffByte
    split
    next special => obtain rfl | rfl := special <;> decide
    next plain => exact fun mem => plain (.inl (List.mem_singleton.mp mem).symm)

/-- The first byte of a line, and then the rest of it. -/
theorem Receiver.run_onLine_cons {r next : Receiver} {b : Byte} {e : Option RxEvent}
    (taken : r.take { value := b, stop := true } = (next, e)) (bs : List Byte) :
    r.run (onLine (b :: bs)) = ((next.run (onLine bs)).1, e.toList ++ (next.run (onLine bs)).2) := by
  simp only [onLine, List.map_cons, Receiver.run, taken]

/-- A receiver that discards a frame ignores every byte but a flag (R173). -/
theorem Receiver.run_discarding (bs : List Byte) (noFlag : flagByte ∉ bs) :
    Receiver.discarding.run (onLine bs) = (Receiver.discarding, []) := by
  induction bs with
  | nil => rfl
  | cons b bs ih =>
    obtain ⟨other, others⟩ := not_or.mp (mt List.mem_cons.mpr noFlag)
    have ignored : Receiver.discarding.take { value := b, stop := true } = (Receiver.discarding, none) :=
      if_neg fun flag => other flag.2.symm
    rw [Receiver.run_onLine_cons ignored, ih others]
    rfl

/-- The 245th body byte is a size error, with or without an escape before it (R174). -/
theorem Receiver.run_stuffByte_of_full (body : List Byte) (b : Byte) (full : body.length = 244) :
    (Receiver.within body).run (onLine (stuffByte b)) = (Receiver.discarding, [.sizeError]) := by
  have beyond (r : Receiver) (c : Byte) (eq : r.body = body) : r.add c = (Receiver.discarding, some .sizeError) :=
    if_pos (by rw [eq, full]; decide)
  unfold stuffByte
  split
  next special =>
    have escape : (Receiver.within body).take { value := escapeByte, stop := true }
        = (Receiver.escaped body, none) := rfl
    have restored : (Receiver.escaped body).take { value := b ^^^ 0x40, stop := true }
        = (Receiver.discarding, some .sizeError) := by
      refine Eq.trans ?_ (beyond (Receiver.escaped body) b rfl)
      obtain rfl | rfl := special <;> rfl
    rw [Receiver.run_onLine_cons escape, Receiver.run_onLine_cons restored]
    rfl
  next plain =>
    obtain ⟨noFlag, noEscape⟩ := not_or.mp plain
    have added : (Receiver.within body).take { value := b, stop := true } = (Receiver.discarding, some .sizeError) := by
      refine Eq.trans ?_ (beyond (Receiver.within body) b rfl)
      simp only [Receiver.take, Receiver.within, noFlag, noEscape, and_false, if_false, not_true_eq_false,
        Bool.false_eq_true]
    rw [Receiver.run_onLine_cons added]
    rfl

/-- A body of more than 244 bytes is one size error, and the rest of it is ignored (R173, R174). -/
theorem Receiver.run_stuff_of_long (body : List Byte) (long : 244 < body.length) :
    Receiver.inFrame.run (onLine (stuff body)) = (Receiver.discarding, [.sizeError]) := by
  have taken : Receiver.inFrame.run (onLine (stuff (body.take 244))) = (Receiver.within (body.take 244), []) :=
    Receiver.run_stuff [] _ (by rw [List.length_take, List.length_nil]; omega)
  have parts : stuff body = stuff (body.take 244) ++ (stuffByte body[244] ++ stuff (body.drop 245)) := by
    rw [← stuff, ← List.drop_eq_getElem_cons long, ← stuff_append, List.take_append_drop]
  rw [parts, onLine_append, onLine_append, Receiver.run_append, taken, Receiver.run_append,
    Receiver.run_stuffByte_of_full _ _ (List.length_take_of_le (Nat.le_of_lt long)),
    Receiver.run_discarding _ (flagByte_not_mem_stuff _)]
  rfl

section Ended

variable (r : Receiver) (body : List Byte) (between : r.betweenFrames = true)

include between

/-- The flag that opens a frame brings a receiver between frames to its body (R173). -/
theorem Receiver.run_opened (bs : List Byte) :
    r.run (onLine (flagByte :: bs)) = Receiver.inFrame.run (onLine bs) := by
  rw [Receiver.run_onLine_cons (r.take_flag_of_between between)]
  rfl

/-- A receiver between frames takes a body of at most 244 bytes as it was before stuffing (R172, R174). -/
theorem Receiver.run_opened_body (fits : body.length ≤ 244) (rest : List Byte) :
    r.run (onLine (flagByte :: stuff body ++ rest)) = (Receiver.within body).run (onLine rest) := by
  have taken : Receiver.inFrame.run (onLine (stuff body)) = (Receiver.within body, []) :=
    Receiver.run_stuff [] body (by rwa [List.length_nil, Nat.zero_add])
  rw [List.cons_append, r.run_opened between, onLine_append, Receiver.run_append, taken]
  rfl

/-- A flag behind an escape aborts the frame (R173). -/
theorem Receiver.run_aborted (fits : body.length ≤ 244) :
    r.run (onLine (flagByte :: stuff body ++ [escapeByte, flagByte])) = (Receiver.inFrame, [.abort]) := by
  rw [r.run_opened_body body between fits]
  rfl

/-- A closing flag has the body judged (R173). -/
theorem Receiver.run_closed (fits : body.length ≤ 244) (some_byte : body ≠ []) :
    r.run (onLine (flagByte :: stuff body ++ [flagByte])) = (Receiver.inFrame, [judgeBody body]) := by
  rw [r.run_opened_body body between fits, Receiver.run_closing body some_byte]

/-- A frame too long is counted once, by the byte that makes it so and not by its closing flag (R173, R174). -/
theorem Receiver.run_overlong (long : 244 < body.length) :
    r.run (onLine (flagByte :: stuff body ++ [flagByte])) = (Receiver.inFrame, [.sizeError]) := by
  rw [List.cons_append, r.run_opened between, onLine_append, Receiver.run_append, Receiver.run_stuff_of_long body long]
  rfl

end Ended

/-! ## The counts of a link (R178) -/

/-- Line bytes that end one frame leave the link between frames, and what ended it reaches the counts or the filter. -/
theorem State.receive_event (s : State) (k : Link) (line : List LineByte) (e : RxEvent)
    (ended : (s.link k).rx.run line = (Receiver.inFrame, [e])) :
    s.receive k line = State.receiverEvent k (s.frameClosed k) e := by
  rw [State.receive, ended]
  rfl

/-- An act on a link whose frame was closed is one act on the link. -/
theorem State.setLink_frameClosed (s : State) (k : Link) (act : LinkState → LinkState) :
    (s.frameClosed k).setLink k (act ((s.frameClosed k).link k))
      = s.setLink k (act { s.link k with rx := Receiver.inFrame }) := by
  rw [State.frameClosed, State.link_setLink_self, State.setLink_setLink]

section Counted

variable (s : State) (k : Link) (line : List LineByte)

theorem State.receive_abort (ended : (s.link k).rx.run line = (Receiver.inFrame, [.abort])) :
    s.receive k line = s.setLink k { s.link k with
      rx := Receiver.inFrame, aborts := min ((s.link k).aborts + 1) 65535 } :=
  (s.receive_event k line _ ended).trans
    (s.setLink_frameClosed k fun x => { x with aborts := saturate (x.aborts + 1) })

theorem State.receive_checkError (ended : (s.link k).rx.run line = (Receiver.inFrame, [.checkError])) :
    s.receive k line = s.setLink k { s.link k with
      rx := Receiver.inFrame, checks := min ((s.link k).checks + 1) 65535 } :=
  (s.receive_event k line _ ended).trans
    (s.setLink_frameClosed k fun x => { x with checks := saturate (x.checks + 1) })

theorem State.receive_sizeError (ended : (s.link k).rx.run line = (Receiver.inFrame, [.sizeError])) :
    s.receive k line = s.setLink k { s.link k with
      rx := Receiver.inFrame, sizes := min ((s.link k).sizes + 1) 65535 } :=
  (s.receive_event k line _ ended).trans
    (s.setLink_frameClosed k fun x => { x with sizes := saturate (x.sizes + 1) })

end Counted

/-- The filter drops a frame for another part, unless it is a broadcast on link A (R176). -/
theorem State.filterFrame_of_foreign (s : State) (k : Link) (address kind : Byte) (p : List Byte)
    (foreign : address ≠ s.addressByte) (noBroadcast : address ≠ broadcastAddress ∨ k ≠ .automation) :
    s.filterFrame k address kind p = s := by
  rw [State.filterFrame, if_neg foreign, if_neg (not_and_or.mpr noBroadcast)]

/-- A flag between frames opens the next frame and is counted nowhere (R173). -/
theorem State.receive_flag (s : State) (k : Link) (between : (s.link k).rx.betweenFrames = true) :
    s.receive k (onLine [flagByte]) = s.frameClosed k := by
  rw [State.receive, Receiver.run_opened _ between]
  rfl

/-- Settles O16: what the receiver makes of each line, and what its link counts of that. -/
theorem undeliveredFramesAreOnlyCounted : Obligations.UndeliveredFramesAreOnlyCounted := by
  unfold Obligations.UndeliveredFramesAreOnlyCounted
  intro s k body between
  refine ⟨fun fits => ?abort, fun whole fits mismatch => ?check, fun some_byte short => ?short, fun long => ?long,
    fun address kind p fits foreign noBroadcast => ?foreign, ?flag⟩ <;> refine congrArg Host.Outcome.next ?_
  case abort => exact s.receive_abort k _ (Receiver.run_aborted _ body between fits)
  case check =>
    refine s.receive_checkError k _ ((Receiver.run_closed _ body between fits ?_).trans ?_)
    · exact List.ne_nil_of_length_pos (by omega)
    · rw [judgeBody_of_mismatch body whole mismatch]
  case short =>
    refine s.receive_sizeError k _ ((Receiver.run_closed _ body between (by omega) ?_).trans ?_)
    · exact List.ne_nil_of_length_pos some_byte
    · rw [judgeBody_of_short body short]
  case long => exact s.receive_sizeError k _ (Receiver.run_overlong _ body between long)
  case foreign =>
    rw [s.receive_lineFrame k kind p between fits]
    exact (s.frameClosed k).filterFrame_of_foreign k address kind p foreign noBroadcast
  case flag => exact s.receive_flag k between

/-! ## An inserter's frame of another kind or length (R177, R180) -/

/-- An inserter's frame of any kind and length, once it is counted. -/
theorem exec_inserterFrameRefused (s : State) (l : LaneId) (kind : Byte) (p : List Byte) :
    exec (.inserterFrameRefused l kind p) s = .next
      (if (s.requested l).repliesFull (.inserter l) then s.requested l
      else if kind ≠ 0x60 then (s.requested l).send (.inserter l) (refusedFrame .badKind kind)
      else if p.length ≠ 4 then (s.requested l).send (.inserter l) (refusedFrame .badLength kind)
      else (s.requested l).takeRequest l (timecodeOf p)) := by
  refine congrArg Host.Outcome.next ?_
  unfold State.inserterFrame
  rw [State.goodFrame_inserter]
  rfl

/-- Settles O60: first by whether the link holds two replies, then by the kind of the frame. -/
theorem inserterFramesRefused : Obligations.InserterFramesRefused := by
  unfold Obligations.InserterFramesRefused
  intro s l kind p refused
  rw [exec_inserterFrameRefused, State.requested_repliesFull]
  by_cases full : 2 ≤ (s.link (.inserter l)).waiting.length
  · rw [if_pos (decide_eq_true full), if_pos full]
    rfl
  rw [if_neg (mt of_decide_eq_true full), if_neg full]
  by_cases request : kind = 0x60
  · have badLength : p.length ≠ 4 := refused.resolve_left (not_not.mpr request)
    rw [if_neg (not_not.mpr request), if_pos badLength, State.requested_send, if_pos request]
    rfl
  · rw [if_pos request, State.requested_send, if_neg request]
    rfl

end Sys2Proof.Machine
end

section
/-! PROOF. The queue of waiting commands: no operation of the part reaches it, every command answers a next state (O2), and
a step takes its command from the front (O1). -/

namespace Sys2Proof.Machine

/-! ## Reports, links and folds -/

section Operations

variable (s : State)

@[simp] theorem State.report_pending (k : ReportKind) (l : Option LaneId) (w : Option WriterId) (v : Option Nat) :
    (s.report k l w v).pending = s.pending := by simp [State.report]

@[simp] theorem State.withTime_pending (x : TimeBase × List Report) : (s.withTime x).pending = s.pending := by
  simp [State.withTime]

@[simp] theorem State.announceRole_pending (w : WriterId) : (s.announceRole w).pending = s.pending := rfl
@[simp] theorem State.refuseWriter_pending (w : WriterId) (r : Reason) (kind : Byte) :
    (s.refuseWriter w r kind).pending = s.pending := rfl
@[simp] theorem State.send_pending (k : Link) (f : TxFrame) : (s.send k f).pending = s.pending := rfl
@[simp] theorem State.answer_pending (kind : Byte) (r : Reply) : (s.answer kind r).pending = s.pending := rfl
@[simp] theorem State.countGood_pending (k : Link) : (s.countGood k).pending = s.pending := rfl
@[simp] theorem State.frameClosed_pending (k : Link) : (s.frameClosed k).pending = s.pending := rfl
@[simp] theorem State.goodFrame_pending (k : Link) : (s.goodFrame k).pending = s.pending := rfl
@[simp] theorem State.withStore_pending (x : Store) : (s.withStore x).pending = s.pending := rfl

@[simp] theorem State.restartSupervision_pending : s.restartSupervision.pending = s.pending := by
  unfold State.restartSupervision; split <;> rfl

@[simp] theorem State.automationGood_pending : s.automationGood.pending = s.pending := by simp [State.automationGood]

/-- A fold of operations that keep the queue keeps it. -/
theorem foldl_pending {α : Type} (f : State → α → State) (keeps : ∀ s a, (f s a).pending = s.pending) (as : List α) :
    (as.foldl f s).pending = s.pending :=
  (foldl_related (R := fun s t => s.pending = t.pending) (fun _ => rfl) .trans f (fun s a => (keeps s a).symm) as s).symm

/-! ## Cues and withdraw -/

@[simp] theorem State.join_pending : s.join.pending = s.pending := by
  unfold State.join; dsimp only; split <;> simp

@[simp] theorem State.split_pending : s.split.pending = s.pending := by simp [State.split]

@[simp] theorem State.cueOnLane_pending (c : Cue) (l : LaneId) : (s.cueOnLane c l).pending = s.pending := by
  unfold State.cueOnLane
  split
  · exact s.join_pending
  · exact s.split_pending
  · split <;> simp

@[simp] theorem State.cueIfAddressed_pending (c : Cue) (l : LaneId) : (s.cueIfAddressed c l).pending = s.pending := by
  unfold State.cueIfAddressed; split <;> simp

@[simp] theorem State.executeCue_pending (c : Cue) : (s.executeCue c).pending = s.pending := by
  simp [State.executeCue]

@[simp] theorem State.withdraw_pending (byExpiry : Bool) : (s.withdraw byExpiry).pending = s.pending := by
  simp [State.withdraw]

@[simp] theorem State.refuseCueArrival_pending (r : Reason) (p : List Byte) :
    (s.refuseCueArrival r p).pending = s.pending := by simp [State.refuseCueArrival]

@[simp] theorem State.acceptCue_pending (p : List Byte) (c : Cue) (target : Option Nat) :
    (s.acceptCue p c target).1.pending = s.pending := by
  cases target with
  | none => exact s.executeCue_pending c
  | some t =>
    unfold State.acceptCue
    dsimp only
    cases s.time.convert t with
    | due => exact s.executeCue_pending c
    | late n => simp
    | ahead sfc => dsimp only; split <;> simp

@[simp] theorem takeCueFrame_pending (p : List Byte) : (takeCueFrame p s).1.pending = s.pending := by
  unfold takeCueFrame
  split
  · simp
  · split <;> simp

/-! ## Writers -/

@[simp] theorem State.leaveRole_pending (w : WriterId) : (s.leaveRole w).pending = s.pending := by
  unfold State.leaveRole; cases (s.writer w).role <;> simp

@[simp] theorem State.assignRole_pending (w : WriterId) (x : Role) : (s.assignRole w x).pending = s.pending := by
  unfold State.assignRole
  cases x with
  | idle => simp
  | onAir l | standby l => dsimp only; split <;> simp

@[simp] theorem announceChanges_pending (before : PerWriter Writer) : (announceChanges before s).pending = s.pending :=
  foldl_pending _ _ (fun s w => by split <;> simp) _

@[simp] theorem State.stageWord_pending (w : WriterId) (l : LaneId) (t : Text) (attach : Bool) :
    (s.stageWord w l t attach).pending = s.pending := by
  unfold State.stageWord; dsimp only; split <;> simp

@[simp] theorem State.relayLane_pending (l : LaneId) (w : WriterId) (out : Bool) :
    (s.relayLane l w out).1.pending = s.pending := by simp [State.relayLane]

@[simp] theorem State.exchangeRoles_pending (l : LaneId) (w : WriterId) (out : Option WriterId) :
    (s.exchangeRoles l w out).pending = s.pending := by cases out <;> rfl

@[simp] theorem State.relay_pending (l : LaneId) (w : WriterId) : (s.relay l w).pending = s.pending := by
  unfold State.relay
  cases s.holder (.onAir l) <;> cases s.running l <;> simp

@[simp] theorem State.reportSubstituted_pending (w : WriterId) (l : LaneId) (t : Text) :
    (s.reportSubstituted w l t).pending = s.pending := by
  unfold State.reportSubstituted; split <;> simp

/-- A message that is judged keeps the queue where its three acts do. -/
theorem State.judgeMessage_pending (w : WriterId) (kind : Byte) (bad : Option Reason)
    {suppressed onAir staged : State → LaneId → State} (suppresses : ∀ l, (suppressed s l).pending = s.pending)
    (airs : ∀ l, (onAir s l).pending = s.pending) (stages : ∀ l, (staged s l).pending = s.pending) :
    (s.judgeMessage w kind bad suppressed onAir staged).pending = s.pending := by
  unfold State.judgeMessage
  split
  · rfl
  · split
    · split
      · rfl
      · split
        · exact suppresses _
        · exact airs _
    · rfl
  · split
    · rfl
    · exact stages _

@[simp] theorem State.takeWord_pending (w : WriterId) (p : List Byte) : (s.takeWord w p).pending = s.pending := by
  cases p with
  | nil => rfl
  | cons flags text => exact s.judgeMessage_pending w _ _ (fun _ => by simp) (fun _ => by simp) (fun _ => by simp)

@[simp] theorem State.takeBreak_pending (w : WriterId) (p : List Byte) : (s.takeBreak w p).pending = s.pending := by
  unfold State.takeBreak
  split
  · rfl
  · exact s.judgeMessage_pending w _ _ (fun _ => rfl) (fun _ => by simp) (fun _ => rfl)

@[simp] theorem State.takeSpeaker_pending (w : WriterId) (p : List Byte) :
    (s.takeSpeaker w p).pending = s.pending := by
  unfold State.takeSpeaker
  split
  · exact s.judgeMessage_pending w _ _ (fun _ => rfl) (fun _ => by simp) (fun _ => rfl)
  · rfl

@[simp] theorem State.takeDelete_pending (w : WriterId) (p : List Byte) : (s.takeDelete w p).pending = s.pending := by
  unfold State.takeDelete
  split
  · exact s.judgeMessage_pending w _ _ (fun _ => rfl) (fun _ => by simp) (fun _ => rfl)
  · rfl

@[simp] theorem State.takeTake_pending (w : WriterId) (p : List Byte) : (s.takeTake w p).pending = s.pending := by
  unfold State.takeTake
  split
  · rfl
  · split
    · exact s.relay_pending _ w
    · rfl

@[simp] theorem State.takeQuery_pending (w : WriterId) (p : List Byte) : (s.takeQuery w p).pending = s.pending := by
  unfold State.takeQuery; split <;> rfl

@[simp] theorem State.takeMessage_pending (w : WriterId) (kind : Byte) (p : List Byte) :
    (s.takeMessage w kind p).pending = s.pending := by
  unfold State.takeMessage; split_ifs <;> simp

/-! ## Inserters -/

@[simp] theorem State.replyOwn_pending (l : LaneId) (everyFrame : Bool) :
    (s.replyOwn l everyFrame).pending = s.pending := by
  unfold State.replyOwn; dsimp only; split <;> rfl

@[simp] theorem State.replyFollowing_pending : s.replyFollowing.pending = s.pending := by
  unfold State.replyFollowing; dsimp only; split <;> rfl

@[simp] theorem State.takeRequest_pending (l : LaneId) (word : TimecodeWord) :
    (s.takeRequest l word).pending = s.pending := by
  unfold State.takeRequest
  dsimp only
  split
  · simp
  · split <;> simp

@[simp] theorem State.inserterFrame_pending (l : LaneId) (kind : Byte) (p : List Byte) :
    (s.inserterFrame l kind p).pending = s.pending := by
  unfold State.inserterFrame; dsimp only; split_ifs <;> simp

/-! ## The store and the report unit -/

@[simp] theorem State.resetStore_pending : s.resetStore.pending = s.pending := by
  unfold State.resetStore; cases s.store.engine <;> simp

@[simp] theorem State.completeCommit_pending : s.completeCommit.pending = s.pending := by
  unfold State.completeCommit; split <;> simp

@[simp] theorem State.completeCompare_pending : s.completeCompare.pending = s.pending := by
  unfold State.completeCompare; split <;> simp

@[simp] theorem State.completePrepare_pending : s.completePrepare.pending = s.pending := by
  unfold State.completePrepare; split <;> simp

@[simp] theorem State.resetReports_pending : s.resetReports.pending = s.pending := by simp [State.resetReports]

@[simp] theorem State.resetBlocks_pending : s.resetBlocks.pending = s.pending := rfl

@[simp] theorem State.transmit_pending (k : Link) : (s.transmit k).pending = s.pending := by
  unfold State.transmit; split <;> rfl

@[simp] theorem State.forgetFollowed_pending (l : LaneId) : (s.forgetFollowed l).pending = s.pending := by
  cases l <;> rfl

end Operations

/-! ## Requests -/

section Handlers

variable (p : List Byte) (s : State)

@[simp] theorem configureLaneRequest_pending : (configureLaneRequest p s).1.pending = s.pending := by
  unfold configureLaneRequest
  split
  · rfl
  · split
    · rfl
    · split <;> simp

@[simp] theorem configureWriterRequest_pending : (configureWriterRequest p s).1.pending = s.pending := by
  unfold configureWriterRequest; split <;> rfl

@[simp] theorem setStyleRequest_pending : (setStyleRequest p s).1.pending = s.pending := by
  unfold setStyleRequest
  dsimp only
  split
  · rfl
  · split <;> rfl

@[simp] theorem setStyleLimitRequest_pending : (setStyleLimitRequest p s).1.pending = s.pending := rfl

@[simp] theorem setFrameRateRequest_pending : (setFrameRateRequest p s).1.pending = s.pending := by
  unfold setFrameRateRequest
  split
  · rfl
  · split <;> rfl

@[simp] theorem setSupervisionRequest_pending : (setSupervisionRequest p s).1.pending = s.pending := by
  unfold setSupervisionRequest; dsimp only; split <;> simp

@[simp] theorem assignRequest_pending : (assignRequest p s).1.pending = s.pending := by
  unfold assignRequest; split <;> simp

@[simp] theorem handoverRequest_pending : (handoverRequest p s).1.pending = s.pending := by
  unfold handoverRequest
  split
  · rfl
  · split <;> simp

@[simp] theorem startRequest_pending : (startRequest p s).1.pending = s.pending := by
  unfold startRequest
  split
  · rfl
  · split <;> simp

@[simp] theorem stopRequest_pending : (stopRequest p s).1.pending = s.pending := by
  unfold stopRequest
  split
  · rfl
  · split <;> simp

@[simp] theorem loadBufferRequest_pending : (loadBufferRequest p s).1.pending = s.pending := by
  unfold loadBufferRequest
  dsimp only
  split
  · rfl
  · split_ifs <;> rfl

@[simp] theorem commitRequest_pending : (commitRequest p s).1.pending = s.pending := by
  unfold commitRequest
  dsimp only
  split
  · rfl
  · split_ifs <;> rfl

@[simp] theorem compareRequest_pending : (compareRequest p s).1.pending = s.pending := by
  unfold compareRequest
  dsimp only
  split
  · rfl
  · split_ifs <;> rfl

@[simp] theorem defineSegmentRequest_pending : (defineSegmentRequest p s).1.pending = s.pending := by
  unfold defineSegmentRequest; dsimp only; split_ifs <;> rfl

@[simp] theorem deleteSegmentRequest_pending : (deleteSegmentRequest p s).1.pending = s.pending := by
  unfold deleteSegmentRequest; dsimp only; split_ifs <;> rfl

@[simp] theorem prepareRequest_pending : (prepareRequest p s).1.pending = s.pending := by
  unfold prepareRequest
  dsimp only
  split
  · rfl
  · split
    · rfl
    · split <;> simp

@[simp] theorem storeResetRequest_pending : (storeResetRequest p s).1.pending = s.pending := s.resetStore_pending

@[simp] theorem cancelCueRequest_pending : (cancelCueRequest p s).1.pending = s.pending := rfl

@[simp] theorem releaseRequest_pending : (releaseRequest p s).1.pending = s.pending := s.withdraw_pending false

@[simp] theorem pollRequest_pending : (pollRequest p s).1.pending = s.pending := rfl

@[simp] theorem statusRequest_pending : (statusRequest p s).1.pending = s.pending := by
  unfold statusRequest; split <;> rfl

@[simp] theorem clearCountersRequest_pending : (clearCountersRequest p s).1.pending = s.pending := rfl

@[simp] theorem engineResetRequest_pending : (engineResetRequest p s).1.pending = s.pending := by
  simp [engineResetRequest]

end Handlers

/-- Every request of the table keeps the queue. -/
theorem requestHandler_pending {kind : Byte} {handle : List Byte → State → State × Reply}
    (h : requestHandler kind = some handle) (p : List Byte) (s : State) : (handle p s).1.pending = s.pending := by
  unfold requestHandler at h
  split at h
  case h_24 => cases h
  all_goals obtain rfl := Option.some.inj h; simp

/-! ## Frames -/

section Frames

variable (s : State)

/-- A frame of link A that is held back, refused or answered keeps the queue where its handler does. -/
theorem State.serve_pending (kind : Byte) (ok : Bool) (p : List Byte) (handle : List Byte → State → State × Reply)
    (keeps : (handle p s).1.pending = s.pending) : (s.serve kind ok p handle).pending = s.pending := by
  unfold State.serve
  split
  · rfl
  · split
    · exact keeps
    · rfl

theorem State.request_pending {kind : Byte} (p : List Byte) {handle : List Byte → State → State × Reply}
    (h : requestHandler kind = some handle) : (s.request kind p handle).pending = s.pending :=
  (State.serve_pending _ _ _ _ _ (requestHandler_pending h p _)).trans s.automationGood_pending

theorem requestRow_pending {kind : Byte} (p : List Byte) {handle : List Byte → State → State × Reply}
    (h : requestHandler kind = some handle) : (requestRow kind p handle s).pending = s.pending :=
  State.request_pending (s.frameClosed .automation) p h

@[simp] theorem State.cueFrame_pending (broadcast : Bool) (p : List Byte) :
    (s.cueFrame broadcast p).pending = s.pending := by
  have taken : (takeCueFrame p s.automationGood).1.pending = s.pending := by simp
  unfold State.cueFrame
  split
  · exact taken
  · exact (State.serve_pending _ _ _ _ _ (takeCueFrame_pending ..)).trans s.automationGood_pending

@[simp] theorem cueRow_pending (kind : CueKind) (broadcast : Bool) (rest : List Byte) :
    (cueRow kind broadcast rest s).pending = s.pending :=
  (s.frameClosed .automation).cueFrame_pending broadcast _

@[simp] theorem State.refuseKind_pending (kind : Byte) : (s.refuseKind kind).pending = s.pending := by
  unfold State.refuseKind; dsimp only; split <;> simp

@[simp] theorem State.automationFrame_pending (kind : Byte) (p : List Byte) :
    (s.automationFrame kind p).pending = s.pending := by
  unfold State.automationFrame
  split
  · exact s.cueFrame_pending false p
  · split
    · next h => exact s.request_pending p h
    · exact s.refuseKind_pending kind

@[simp] theorem State.deliver_pending (k : Link) (kind : Byte) (p : List Byte) :
    (s.deliver k kind p).pending = s.pending := by
  cases k <;> simp [State.deliver]

@[simp] theorem State.filterFrame_pending (k : Link) (address kind : Byte) (p : List Byte) :
    (s.filterFrame k address kind p).pending = s.pending := by
  unfold State.filterFrame; split_ifs <;> simp

theorem State.receiverEvent_pending (k : Link) (e : RxEvent) : (State.receiverEvent k s e).pending = s.pending := by
  cases e with
  | frame address kind p => exact s.filterFrame_pending k address kind p
  | abort | checkError | sizeError => rfl

/-- Line bytes of any kind keep the queue: the frames among them are requests, cues and messages. -/
@[simp] theorem State.receive_pending (k : Link) (line : List LineByte) : (s.receive k line).pending = s.pending :=
  foldl_pending _ _ (fun s e => s.receiverEvent_pending k e) _

end Frames

/-! ## Commands -/

/-- Settles O2: every arm of `exec` is one next state, and the operation it is made of keeps the queue. -/
theorem commandsKeepQueue : Obligations.CommandsKeepQueue := by
  unfold Obligations.CommandsKeepQueue
  intro c s
  cases c with
  | powerOn straps | sameFrameWindowClose => exact ⟨_, rfl, rfl⟩
  | pulseArrival tc => exact ⟨_, rfl, s.withTime_pending _⟩
  | pulseSupervisionExpiry | internalGeneratorExpiry | correctionWindowExpiry l => exact ⟨_, rfl, by split <;> simp⟩
  | flushTimerExpiry l => exact ⟨_, rfl, s.onLane_pending l _⟩
  | cueScheduleDue =>
    exact ⟨_, exec_cueScheduleDue s, foldl_pending _ _ (fun s (e : ScheduledCue) => s.executeCue_pending e.cue) _⟩
  | automationSupervisionExpiry =>
    refine ⟨_, rfl, ?_⟩
    split
    · rfl
    · split <;> simp
  | word w p | speaker w p | delete w p | writerTake w p | query w p | breakMark w p | writerFrameRefused w kind p
  | inserterRequest l p | inserterFrameRefused l kind p | automationFrameRefused kind p =>
    exact ⟨_, rfl, by simp⟩
  | commitCompletion => exact ⟨_, rfl, s.completeCommit_pending⟩
  | compareCompletion => exact ⟨_, rfl, s.completeCompare_pending⟩
  | prepareCompletion => exact ⟨_, rfl, s.completePrepare_pending⟩
  | configureLane p | configureWriter p | setStyle p | setStyleLimit p | setFrameRate p | setSupervision p
  | assign p | handover p | start p | stop p | loadBuffer p | commit p | compare p | defineSegment p
  | deleteSegment p | prepare p | storeReset p | cancelCue p | release p | poll p | status p | clearCounters p
  | engineReset p =>
    exact ⟨_, rfl, requestRow_pending s p rfl⟩
  | freeze b rest | thaw b rest | hold b rest | resume b rest | stepCue b rest | clear b rest | join b rest
  | split b rest | takeCue b rest | advance b rest | endCue b rest =>
    exact ⟨_, rfl, cueRow_pending s _ b rest⟩
  | transmitFrame k => exact ⟨_, rfl, s.transmit_pending k⟩
  | abort k line | checkError k line | sizeError k line | frameIgnored k line => exact ⟨_, rfl, s.receive_pending k line⟩
  | flagArrival k => exact ⟨_, rfl, s.receive_pending k _⟩

/-- A step with a command waiting takes it and leaves the queue's rest (log entry 20). -/
theorem step_of_pending {s : State} {c : Instr} {rest : List Instr} (queue : s.pending = c :: rest) :
    step s = exec c { s with pending := rest } := by
  unfold step
  rw [queue]

/-- Settles O1, from what `step` does with a command waiting. -/
theorem stepRunsFrontCommand : Obligations.StepRunsFrontCommand := by
  unfold Obligations.StepRunsFrontCommand
  exact fun _ _ _ queue => step_of_pending queue

end Sys2Proof.Machine
end
